-- ==== Sys2Proof/Word.lean ====
section
/-! DEFINITION. The word types of the block: bytes and nibbles are bits, identifiers are opaque numbers. -/

namespace Sys2Proof

/-- A byte: 8 bits, numbered from 0 at the least significant end (00_scope.md R9). -/
abbrev Byte := BitVec 8

/-- A nibble: 4 bits (R9). -/
abbrev Nibble := BitVec 4

/-- A line level or a one-bit flag: `true` is 1 (high), `false` is 0 (low). -/
abbrev Level := Bool

/-- A GPIO pin identifier: opaque, only ever compared (10_state.md R40). DESIGN CHOICE: a number (log entry 13). -/
abbrev Pin := Nat

/-- An I2C device address: opaque, passed unchanged to every call (R40). DESIGN CHOICE: a number (log entry 13). -/
abbrev BusAddress := Nat

/-- A PWM channel identifier: opaque (R40). DESIGN CHOICE: a number (log entry 13). -/
abbrev PwmChannel := Nat

end Sys2Proof
end

