-- ==== Sys2Proof/Syntax.lean ====
section
/-! DEFINITION. The instructions of spec/opcode_table.json, one constructor per row, and the undecoded units the host
hands to the block. -/

namespace Sys2Proof

/-- `justify` (30_encoding.md R96): LEFT = 0, RIGHT = 1, CENTER = 2. -/
inductive Justify
  | left
  | right
  | center
  deriving DecidableEq, Repr

/-- One row of spec/opcode_table.json each: nine protocol units and two lone nibble units of the wire level, then the
request level, in the table's order. -/
inductive Instr
  /-- CLEAR_DISPLAY (30_encoding.md R75). -/
  | clearDisplay
  /-- RETURN_HOME (R76); its don't-care bit is sent as 0 (R86). -/
  | returnHome
  /-- ENTRY_MODE_SET (R77): I/D (bit 1) and S (bit 0). -/
  | entryModeSet (increment shift : Bool)
  /-- DISPLAY_CONTROL (R78): D (bit 2), C (bit 1), B (bit 0). -/
  | displayControl (displayOn cursorOn blinkOn : Bool)
  /-- CURSOR_SHIFT (R79): S/C (bit 3) and R/L (bit 2). -/
  | cursorShift (moveDisplay moveRight : Bool)
  /-- FUNCTION_SET (R80): DL (bit 4), N (bit 3), F (bit 2). -/
  | functionSet (eightBit twoLines tallDots : Bool)
  /-- SET_CGRAM_ADDR (R82). -/
  | setCgramAddr (address : BitVec 6)
  /-- SET_DDRAM_ADDR (R83). -/
  | setDdramAddr (address : BitVec 7)
  /-- DATA_WRITE (R84). -/
  | dataWrite (value : Byte)
  /-- The lone nibble unit (0, 3) of initialization step 3 (R85). -/
  | handshakeNibble3
  /-- The lone nibble unit (0, 2) of initialization step 4 (R85). -/
  | handshakeNibble2
  /-- Request 0x00 (44_session.md R280). -/
  | constructGpio (rsPin enablePin : Pin) (dataPins : List Pin) (backlightPin rwPin : Option Pin)
      (columns lines dotSize : Nat)
  /-- Request 0x01 (44_session.md R281). -/
  | constructI2c (address : BusAddress) (columns lines dotSize : Nat)
  /-- Request 0x02 (43_operations.md R210). -/
  | clear
  /-- Request 0x03 (R211). -/
  | home
  /-- Request 0x04 (R212). -/
  | setCursor (row col : Nat)
  /-- Request 0x05 (R214). -/
  | writeText (text : List Nat) (justify : Justify)
  /-- Request 0x06 (R216). -/
  | writeRaw (glyph row col : Nat)
  /-- Request 0x07 (R215). -/
  | createChar (location : Nat) (bitmap : List Nat)
  /-- Request 0x08 (R220). -/
  | display
  /-- Request 0x09 (R221). -/
  | noDisplay
  /-- Request 0x0A (R222). -/
  | cursor
  /-- Request 0x0B (R223). -/
  | noCursor
  /-- Request 0x0C (R224). -/
  | blink
  /-- Request 0x0D (R225). -/
  | noBlink
  /-- Request 0x0E (R226). -/
  | scrollLeft
  /-- Request 0x0F (R227). -/
  | scrollRight
  /-- Request 0x10 (R228). -/
  | leftToRight
  /-- Request 0x11 (R229). -/
  | rightToLeft
  /-- Request 0x12 (R230). -/
  | autoscroll
  /-- Request 0x13 (R231). -/
  | noAutoscroll
  /-- Request 0x14 (44_session.md R284). -/
  | enableBacklight (intensity : Int)
  /-- Request 0x15 (R285). -/
  | disableBacklight
  /-- Request 0x16 (R283). -/
  | cleanup
  /-- The reserved request opcode 0x17 (60_exceptions.md R311). -/
  | reservedRequest17
  /-- The reserved request opcodes 0x18..0x1F, by their low three bits (R311). -/
  | reservedRequest18 (low : BitVec 3)
  deriving DecidableEq, Repr

/-- The constructor arguments that may be omitted (30_encoding.md R97), in the source's order. -/
inductive OptionalArgument
  | backlightPin
  | readWritePin
  | columns
  | lines
  | dotSize
  deriving DecidableEq, Repr

/-- A typed operand that travels beside a request opcode, "not as bits" (30_encoding.md R95, R96). DESIGN CHOICE: these
kinds carry the operand types of R96; `justify` travels as its number, and a constructor argument given by its name, as in
`lines=2` (44_session.md R281), is `keyword` (log entry 3). -/
inductive Operand
  | nat (value : Nat)
  | int (value : Int)
  | list (values : List Nat)
  | optPin (pin : Option Pin)
  | keyword (argument : OptionalArgument) (value : Nat)
  deriving DecidableEq, Repr

/-- What the host hands to the block, not yet decoded, in one of the three formats of 30_encoding.md R92; the word is the
number that spec/opcode_table.json gives the row. -/
inductive RawUnit
  /-- Format `wire9`: RS in bit 8, the byte in bits 7:0. -/
  | wire (word : Nat)
  /-- Format `nibble5`: RS in bit 4, the nibble in bits 3:0. -/
  | nibble (word : Nat)
  /-- Format `request5`: the opcode, and its typed operands in the order of R95. -/
  | request (opcode : Nat) (operands : List Operand)
  deriving DecidableEq, Repr

/-- Why a unit decodes to no instruction. -/
inductive DecodeError
  /-- The word has a bit set beyond its format's width (R92). -/
  | wordTooWide
  /-- A `wire9` word that matches no row: RS = 0 with byte 0x00 (R74). -/
  | noSuchCommand
  /-- A `nibble5` word that is neither handshake nibble (R85). -/
  | noSuchNibble
  /-- The operands beside the opcode are not those R95 lists for it. -/
  | operandShape
  /-- A justify number other than 0, 1, 2 (R96). -/
  | noSuchJustify
  deriving DecidableEq, Repr

end Sys2Proof
end

