-- ==== Sys2Proof/WellFormed.lean ====
section
/-! DEFINITION. Which instructions the block itself ever forms: for a wire unit, the operand values its rule lets the block
send; every request is well formed, since its arguments are checked when it runs (43_operations.md R219). -/

namespace Sys2Proof

/-- The address is a CGRAM slot base `location << 3`: bits 2:0 are 0 (30_encoding.md R82). -/
def isSlotBase (address : BitVec 6) : Bool := address &&& 0x07#6 == 0#6

/-- The address is one `ROW_OFFSET[row] + col` can give: at most 0x7B (10_state.md R38, 30_encoding.md R83). -/
def isReachableDdram (address : BitVec 7) : Bool := address.toNat ≤ 0x7B

/-- The values of the wire operands the block sends (30_encoding.md R79, R80, R82, R83). -/
def Instr.wellFormed : Instr → Bool
  | .cursorShift moveDisplay _ => moveDisplay
  | .functionSet eightBit twoLines tallDots => !eightBit && !(twoLines && tallDots)
  | .setCgramAddr address => isSlotBase address
  | .setDdramAddr address => isReachableDdram address
  | .clearDisplay | .returnHome | .entryModeSet _ _ | .displayControl _ _ _ | .dataWrite _
  | .handshakeNibble3 | .handshakeNibble2 => true
  | .constructGpio _ _ _ _ _ _ _ _ | .constructI2c _ _ _ _ => true
  | .clear | .home | .setCursor _ _ | .writeText _ _ | .writeRaw _ _ _ | .createChar _ _ => true
  | .display | .noDisplay | .cursor | .noCursor | .blink | .noBlink => true
  | .scrollLeft | .scrollRight | .leftToRight | .rightToLeft | .autoscroll | .noAutoscroll => true
  | .enableBacklight _ | .disableBacklight | .cleanup => true
  | .reservedRequest17 | .reservedRequest18 _ => true

/-- A row of the wire level: one of the nine protocol units or the two lone nibble units. -/
def Instr.isWireUnit : Instr → Bool
  | .clearDisplay | .returnHome | .entryModeSet _ _ | .displayControl _ _ _ | .cursorShift _ _ | .functionSet _ _ _
  | .setCgramAddr _ | .setDdramAddr _ | .dataWrite _ | .handshakeNibble3 | .handshakeNibble2 => true
  | .constructGpio _ _ _ _ _ _ _ _ | .constructI2c _ _ _ _ => false
  | .clear | .home | .setCursor _ _ | .writeText _ _ | .writeRaw _ _ _ | .createChar _ _ => false
  | .display | .noDisplay | .cursor | .noCursor | .blink | .noBlink => false
  | .scrollLeft | .scrollRight | .leftToRight | .rightToLeft | .autoscroll | .noAutoscroll => false
  | .enableBacklight _ | .disableBacklight | .cleanup => false
  | .reservedRequest17 | .reservedRequest18 _ => false

/-- A request that is admitted only in phase Ready: a public operation (43_operations.md R218) or a backlight request
(44_session.md R284, R285). -/
def Instr.needsReady : Instr → Bool
  | .clear | .home | .setCursor _ _ | .writeText _ _ | .writeRaw _ _ _ | .createChar _ _ => true
  | .display | .noDisplay | .cursor | .noCursor | .blink | .noBlink => true
  | .scrollLeft | .scrollRight | .leftToRight | .rightToLeft | .autoscroll | .noAutoscroll => true
  | .enableBacklight _ | .disableBacklight => true
  | .clearDisplay | .returnHome | .entryModeSet _ _ | .displayControl _ _ _ | .cursorShift _ _ | .functionSet _ _ _
  | .setCgramAddr _ | .setDdramAddr _ | .dataWrite _ | .handshakeNibble3 | .handshakeNibble2 => false
  | .constructGpio _ _ _ _ _ _ _ _ | .constructI2c _ _ _ _ => false
  | .cleanup | .reservedRequest17 | .reservedRequest18 _ => false

/-- A constructor request, which creates a session (44_session.md R280, R281). -/
def Instr.isConstruct : Instr → Bool
  | .constructGpio _ _ _ _ _ _ _ _ | .constructI2c _ _ _ _ => true
  | .clearDisplay | .returnHome | .entryModeSet _ _ | .displayControl _ _ _ | .cursorShift _ _ | .functionSet _ _ _
  | .setCgramAddr _ | .setDdramAddr _ | .dataWrite _ | .handshakeNibble3 | .handshakeNibble2 => false
  | .clear | .home | .setCursor _ _ | .writeText _ _ | .writeRaw _ _ _ | .createChar _ _ => false
  | .display | .noDisplay | .cursor | .noCursor | .blink | .noBlink => false
  | .scrollLeft | .scrollRight | .leftToRight | .rightToLeft | .autoscroll | .noAutoscroll => false
  | .enableBacklight _ | .disableBacklight => false
  | .cleanup | .reservedRequest17 | .reservedRequest18 _ => false

end Sys2Proof
end

