-- ==== Sys2Proof/Decode.lean ====
section
/-! DEFINITION. The decoder, total on every unit the host can hand over and rejecting by name; then the encoder, written
from the same tables (30_encoding.md R74, R85, R92, R95). -/

namespace Sys2Proof

/-! ## Decoding -/

/-- A row's test: "A row matches a unit `u` when `u & mask = match`" (R92). -/
def matchesRow {n : Nat} (u mask pattern : BitVec n) : Bool := u &&& mask == pattern

/-- The `wire9` rows, tried in the table's order CLEAR_DISPLAY to DATA_WRITE; "the first match ... is the command selected by
its highest set bit" (R92, R74). -/
def decodeWire (u : BitVec 9) : Except DecodeError Instr :=
  if matchesRow u 0x1FF 0x001 then .ok .clearDisplay
  else if matchesRow u 0x1FE 0x002 then .ok .returnHome
  else if matchesRow u 0x1FC 0x004 then .ok (.entryModeSet (u.getLsbD 1) (u.getLsbD 0))
  else if matchesRow u 0x1F8 0x008 then .ok (.displayControl (u.getLsbD 2) (u.getLsbD 1) (u.getLsbD 0))
  else if matchesRow u 0x1F0 0x010 then .ok (.cursorShift (u.getLsbD 3) (u.getLsbD 2))
  else if matchesRow u 0x1E0 0x020 then .ok (.functionSet (u.getLsbD 4) (u.getLsbD 3) (u.getLsbD 2))
  else if matchesRow u 0x1C0 0x040 then .ok (.setCgramAddr (u.setWidth 6))
  else if matchesRow u 0x180 0x080 then .ok (.setDdramAddr (u.setWidth 7))
  else if matchesRow u 0x100 0x100 then .ok (.dataWrite (u.setWidth 8))
  else .error .noSuchCommand

/-- The `nibble5` rows (R85). -/
def decodeNibble (u : BitVec 5) : Except DecodeError Instr :=
  if matchesRow u 0x1F 0x03 then .ok .handshakeNibble3
  else if matchesRow u 0x1F 0x02 then .ok .handshakeNibble2
  else .error .noSuchNibble

/-- An omitted `columns` (R97). -/
def defaultColumns : Nat := 16

/-- An omitted `lines` (R97). -/
def defaultLines : Nat := 1

/-- An omitted `dot_size` (R97). -/
def defaultDotSize : Nat := 0

/-- The value of an optional number and the operands after it: the next operand if it is a plain number or names this
argument, else the default: "An omitted constructor argument takes the default shown" (R97). -/
def takeNat (argument : OptionalArgument) (default : Nat) : List Operand → Nat × List Operand
  | .nat value :: rest => (value, rest)
  | .keyword named value :: rest => if named = argument then (value, rest) else (default, .keyword named value :: rest)
  | operands => (default, operands)

/-- The same for an optional pin, "absent unless given" (44_session.md R280). A pin given by position has a kind of its own, so
a plain number in its place is a later argument (log entry 3). -/
def takePin (argument : OptionalArgument) : List Operand → Option Pin × List Operand
  | .optPin pin :: rest => (pin, rest)
  | .keyword named value :: rest => if named = argument then (some value, rest) else (none, .keyword named value :: rest)
  | operands => (none, operands)

/-- The operands `columns`, `lines`, `dot_size`, any of them omitted, and nothing after them (R97). -/
def decodeGeometry (k : Nat → Nat → Nat → Instr) (operands : List Operand) : Except DecodeError Instr :=
  let columns := takeNat .columns defaultColumns operands
  let lines := takeNat .lines defaultLines columns.2
  let dotSize := takeNat .dotSize defaultDotSize lines.2
  match dotSize.2 with
  | [] => .ok (k columns.1 lines.1 dotSize.1)
  | _ :: _ => .error .operandShape

/-- The operands of CONSTRUCT_GPIO (R95, R97), any of the optional ones omitted. -/
def decodeGpioOperands : List Operand → Except DecodeError Instr
  | .nat rs :: .nat en :: .list pins :: rest =>
      let backlight := takePin .backlightPin rest
      let readWrite := takePin .readWritePin backlight.2
      decodeGeometry (.constructGpio rs en pins backlight.1 readWrite.1) readWrite.2
  | _ => .error .operandShape

/-- The operands of CONSTRUCT_I2C (R95, R97). -/
def decodeI2cOperands : List Operand → Except DecodeError Instr
  | .nat address :: rest => decodeGeometry (.constructI2c address) rest
  | _ => .error .operandShape

/-- A request with no operand (R95). -/
def decodeBare (i : Instr) : List Operand → Except DecodeError Instr
  | [] => .ok i
  | _ => .error .operandShape

/-- The justify numbers (R96). -/
def justifyOfNumber : Nat → Except DecodeError Justify
  | 0 => .ok .left
  | 1 => .ok .right
  | 2 => .ok .center
  | _ => .error .noSuchJustify

/-- The operands of WRITE_TEXT. -/
def decodeTextOperands : List Operand → Except DecodeError Instr
  | [.list text, .nat j] =>
      match justifyOfNumber j with
      | .ok justify => .ok (.writeText text justify)
      | .error e => .error e
  | _ => .error .operandShape

/-- The operands of SET_CURSOR. -/
def decodeCursorOperands : List Operand → Except DecodeError Instr
  | [.nat row, .nat col] => .ok (.setCursor row col)
  | _ => .error .operandShape

/-- The operands of WRITE_RAW. -/
def decodeRawOperands : List Operand → Except DecodeError Instr
  | [.nat glyph, .nat row, .nat col] => .ok (.writeRaw glyph row col)
  | _ => .error .operandShape

/-- The operands of CREATE_CHAR. -/
def decodeGlyphOperands : List Operand → Except DecodeError Instr
  | [.nat location, .list bitmap] => .ok (.createChar location bitmap)
  | _ => .error .operandShape

/-- The operand of ENABLE_BACKLIGHT. -/
def decodeBacklightOperands : List Operand → Except DecodeError Instr
  | [.int intensity] => .ok (.enableBacklight intensity)
  | _ => .error .operandShape

/-- The request opcodes of R95. A reserved opcode is read whatever stands beside it: it has no operands to check. -/
def decodeRequest (op : BitVec 5) (operands : List Operand) : Except DecodeError Instr :=
  match op.toNat with
  | 0x00 => decodeGpioOperands operands
  | 0x01 => decodeI2cOperands operands
  | 0x02 => decodeBare .clear operands
  | 0x03 => decodeBare .home operands
  | 0x04 => decodeCursorOperands operands
  | 0x05 => decodeTextOperands operands
  | 0x06 => decodeRawOperands operands
  | 0x07 => decodeGlyphOperands operands
  | 0x08 => decodeBare .display operands
  | 0x09 => decodeBare .noDisplay operands
  | 0x0A => decodeBare .cursor operands
  | 0x0B => decodeBare .noCursor operands
  | 0x0C => decodeBare .blink operands
  | 0x0D => decodeBare .noBlink operands
  | 0x0E => decodeBare .scrollLeft operands
  | 0x0F => decodeBare .scrollRight operands
  | 0x10 => decodeBare .leftToRight operands
  | 0x11 => decodeBare .rightToLeft operands
  | 0x12 => decodeBare .autoscroll operands
  | 0x13 => decodeBare .noAutoscroll operands
  | 0x14 => decodeBacklightOperands operands
  | 0x15 => decodeBare .disableBacklight operands
  | 0x16 => decodeBare .cleanup operands
  | 0x17 => .ok .reservedRequest17
  | _ => .ok (.reservedRequest18 (op.setWidth 3))

/-- The decoder: every unit gives an instruction or the name of what is wrong with it. -/
def decode : RawUnit → Except DecodeError Instr
  | .wire word => if word < 2 ^ 9 then decodeWire (BitVec.ofNat 9 word) else .error .wordTooWide
  | .nibble word => if word < 2 ^ 5 then decodeNibble (BitVec.ofNat 5 word) else .error .wordTooWide
  | .request opcode operands =>
      if opcode < 2 ^ 5 then decodeRequest (BitVec.ofNat 5 opcode) operands else .error .wordTooWide

/-! ## Encoding -/

/-- A flag as bit `position` of a `wire9` word. -/
def flagBit (flag : Bool) (position : Nat) : BitVec 9 := if flag then 1#9 <<< position else 0#9

/-- The `wire9` word of a protocol unit, from the bit patterns of R74 with every don't-care bit 0 (R86); `none` for what is
no protocol unit. -/
def encodeWire : Instr → Option (BitVec 9)
  | .clearDisplay => some 0b000000001#9
  | .returnHome => some 0b000000010#9
  | .entryModeSet increment shift => some (0b000000100#9 ||| flagBit increment 1 ||| flagBit shift 0)
  | .displayControl d c b => some (0b000001000#9 ||| flagBit d 2 ||| flagBit c 1 ||| flagBit b 0)
  | .cursorShift moveDisplay moveRight => some (0b000010000#9 ||| flagBit moveDisplay 3 ||| flagBit moveRight 2)
  | .functionSet dl n f => some (0b000100000#9 ||| flagBit dl 4 ||| flagBit n 3 ||| flagBit f 2)
  | .setCgramAddr address => some (0b001000000#9 ||| address.setWidth 9)
  | .setDdramAddr address => some (0b010000000#9 ||| address.setWidth 9)
  | .dataWrite value => some (0b100000000#9 ||| value.setWidth 9)
  | _ => none

/-- The number of a justify value (R96). -/
def Justify.number : Justify → Nat
  | .left => 0
  | .right => 1
  | .center => 2

/-- The unit that stands for an instruction: its word in its format (R92), and for a request its operands in the order of
R95, none omitted. -/
def encode : Instr → RawUnit
  | .handshakeNibble3 => .nibble 0b00011
  | .handshakeNibble2 => .nibble 0b00010
  | .constructGpio rs en pins bl rw columns lines dotSize =>
      .request 0x00 [.nat rs, .nat en, .list pins, .optPin bl, .optPin rw, .nat columns, .nat lines, .nat dotSize]
  | .constructI2c address columns lines dotSize => .request 0x01 [.nat address, .nat columns, .nat lines, .nat dotSize]
  | .clear => .request 0x02 []
  | .home => .request 0x03 []
  | .setCursor row col => .request 0x04 [.nat row, .nat col]
  | .writeText text justify => .request 0x05 [.list text, .nat justify.number]
  | .writeRaw glyph row col => .request 0x06 [.nat glyph, .nat row, .nat col]
  | .createChar location bitmap => .request 0x07 [.nat location, .list bitmap]
  | .display => .request 0x08 []
  | .noDisplay => .request 0x09 []
  | .cursor => .request 0x0A []
  | .noCursor => .request 0x0B []
  | .blink => .request 0x0C []
  | .noBlink => .request 0x0D []
  | .scrollLeft => .request 0x0E []
  | .scrollRight => .request 0x0F []
  | .leftToRight => .request 0x10 []
  | .rightToLeft => .request 0x11 []
  | .autoscroll => .request 0x12 []
  | .noAutoscroll => .request 0x13 []
  | .enableBacklight intensity => .request 0x14 [.int intensity]
  | .disableBacklight => .request 0x15 []
  | .cleanup => .request 0x16 []
  | .reservedRequest17 => .request 0x17 []
  | .reservedRequest18 low => .request (0x18 + low.toNat) []
  | i => .wire ((encodeWire i).getD 0#9).toNat

/-! ## Words as spec/opcode_table.json numbers them -/

/-- Operands of zeros for a request opcode, of the shape R95 asks for; omitted constructor arguments take their defaults
(R97). DESIGN CHOICE: log entry 3. -/
def zeroOperands (opcode : Nat) : List Operand :=
  match opcode with
  | 0x00 => [.nat 0, .nat 0, .list [0, 0, 0, 0]]
  | 0x01 => [.nat 0]
  | 0x04 => [.nat 0, .nat 0]
  | 0x05 => [.list [], .nat 0]
  | 0x06 => [.nat 0, .nat 0, .nat 0]
  | 0x07 => [.nat 0, .list [0, 0, 0, 0, 0, 0, 0, 0]]
  | 0x14 => [.int 0]
  | _ => []

/-- The unit a table word of `nbits` bits (in whole bytes) stands for: a one-byte word is a request opcode, with operands of
zeros, and a two-byte word a `wire9` unit. A `nibble5` word is also one byte, and 0x02 and 0x03 of it are the same numbers as
the requests CLEAR and HOME: a word alone does not say which, and the host's reading is taken. DESIGN CHOICE: log entry 4. -/
def RawUnit.ofTableWord (nbits w : Nat) : RawUnit :=
  if nbits ≤ 8 then .request w (zeroOperands w) else .wire w

/-- The instruction the decoder reads from a word numbered as spec/opcode_table.json numbers it. -/
def decodeTableWord (nbits w : Nat) : Option Instr :=
  match decode (RawUnit.ofTableWord nbits w) with
  | .ok i => some i
  | .error _ => none

end Sys2Proof
end

