-- ==== Sys2Proof/Config.lean ====
section
/-! DEFINITION. What the spec leaves open and no request decides: constants without a body, so that no proof can see
their value. -/

namespace Sys2Proof.Config

/-- `PWM_CHANNEL`, an OPEN parameter (00_scope.md R6, 93_implementation_defined.md U6); log entry 10. -/
opaque pwmChannel : PwmChannel

/-- `PWM_RANGE` less one: the OPEN parameter `PWM_RANGE` is a positive natural (00_scope.md R6, U5); log entry 10. -/
opaque pwmRangeLessOne : Nat

/-- `PWM_RANGE`, "the PWM period resolution": positive, otherwise free (00_scope.md R6). -/
def pwmRange : Nat := pwmRangeLessOne + 1

/-- What a row index beyond the four entries of the row-offset table (10_state.md R29) would read.
No configuration the validation admits reaches it; a free value (log entry 11). -/
opaque rowOffsetBeyondTable : Nat → Nat

/-- The pin named by the release of a PWM channel in a session that has no backlight pin (40_transport.md R134 names `bl`).
No run reaches it; a free value (log entry 12). -/
opaque absentBacklightPin : Pin

end Sys2Proof.Config
end

