-- ==== Sys2Proof/Machine/State.lean ====
section
/-! DEFINITION. The state of the machine as plain data: the Session record of 10_state.md R20, the machine around it, the
results of requests, and the reasons a step can stop. -/

namespace Sys2Proof.Machine

/-- The phases of 10_state.md R22. -/
inductive Phase
  | uninitialized
  | handshakeIn4BitMode
  | ready
  | failed
  | released
  deriving DecidableEq, Repr

/-- The four data pins of the 4-bit bus: `data_pins` is listed as (D4, D5, D6, D7) (30_encoding.md R72), and pin i of the list
carries nibble bit i. -/
structure DataPins where
  d4 : Pin
  d5 : Pin
  d6 : Pin
  d7 : Pin
  deriving DecidableEq, Repr

/-- The GPIO transport state and configuration (10_state.md R30, 00_scope.md R6). -/
structure GpioTransport where
  rsPin : Pin
  enablePin : Pin
  dataPins : DataPins
  backlightPin : Option Pin
  rwPin : Option Pin
  /-- `PWM_CHANNEL`, used only when a backlight pin is present. -/
  pwmChannel : PwmChannel
  /-- `PWM_RANGE`. -/
  pwmRange : Nat
  deriving DecidableEq, Repr

/-- The two variants of the transport, fixed at construction (40_transport.md R120; 10_state.md R30, R31). -/
inductive Transport
  | gpio (g : GpioTransport)
  | i2c (address : BusAddress)
  deriving DecidableEq, Repr

/-- `cfg`, immutable after construction (10_state.md R23). The `transport` of R20 is the same data, stored here once
(log entry 20). -/
structure SessionConfig where
  transport : Transport
  columns : Nat
  numLines : Nat
  dotSize : Nat
  deriving DecidableEq, Repr

/-- The resources of 10_state.md R32. -/
inductive Resource
  | pin (p : Pin)
  | pwmSub
  | pwmChan (ch : PwmChannel)
  | bus (a : BusAddress)
  deriving DecidableEq, Repr

/-- The closed event alphabet of 10_state.md R33. -/
inductive Event
  | pinOut (p : Pin)
  | pin (p : Pin) (level : Level)
  | pinRelease (p : Pin)
  | pwmSetup
  | pwmInit (ch : PwmChannel)
  | pwmWidth (ch : PwmChannel) (p : Pin) (width : Nat)
  | pwmClear (ch : PwmChannel) (p : Pin)
  | pwmTeardown
  | i2cOpen (a : BusAddress)
  | i2cWrite (a : BusAddress) (b : Byte)
  | i2cClose (a : BusAddress)
  | wait (us : Nat)
  deriving DecidableEq, Repr

/-- The Session record of 10_state.md R20. `none` in a control register means "no value yet" (R28). -/
structure Session where
  phase : Phase
  cfg : SessionConfig
  displayFunction : Option Byte
  displayControl : Option Byte
  entryMode : Option Byte
  /-- Resources claimed, in claim order (R32). -/
  claimed : List Resource
  /-- Sticky (R34). -/
  ioFault : Bool
  /-- Sticky (R35). -/
  refused : Bool
  /-- Events since construction began, oldest first (R33). -/
  trace : List Event
  deriving DecidableEq, Repr

/-- What an InvalidArgument records: "the offending argument's name and value" (60_exceptions.md R300). -/
inductive BadArgument
  | dataPins (value : List Pin)
  | columns (value : Nat)
  | lines (value : Nat)
  | col (value : Nat)
  | bitmap (value : List Nat)
  deriving DecidableEq, Repr

/-- The error kinds of 60_exceptions.md R300, each with the info it records. -/
inductive ErrorResult
  | invalidArgument (info : BadArgument)
  | resourceUnavailable (info : Event)
  | ioFailure (info : Event)
  deriving DecidableEq, Repr

/-- The refusal reasons of 60_exceptions.md R311, a closed list. -/
inductive RefusalReason
  | eightBitBus
  | duplicatePins
  | notReady
  | reservedOpcode
  | unwrittenRegister
  deriving DecidableEq, Repr

/-- What a request returns (60_exceptions.md R300); for a constructor the session of an `ok` is the current session. -/
inductive RequestResult
  | ok
  | err (e : ErrorResult)
  | refused (r : RefusalReason)
  deriving DecidableEq, Repr

/-- A collaborator's answer to one call (60_exceptions.md R304). -/
inductive Answer
  | ok
  | fail
  deriving DecidableEq, Repr

/-- The machine: the current session and what surrounds it. -/
structure State where
  /-- The session requests act on; `none` before any construction: the "(no session)" of 41_controller_fsm.md R160. -/
  session : Option Session
  /-- Sessions constructed before the current one, oldest first: each keeps its fields for good (44_session.md R286,
  60_exceptions.md R316). DESIGN CHOICE: log entry 8. -/
  earlier : List Session
  /-- The result of the last request (R300); `none` before the first (log entry 23). -/
  result : Option RequestResult
  /-- INPUT, the model's own field: units the host has issued and the block has not begun, oldest first (20_memory.md R58;
  log entry 2). -/
  pending : List RawUnit
  /-- INPUT, the model's own field: the collaborators' answers still to come, oldest first; a call beyond the list is
  answered `ok` (R304; log entry 5). -/
  answers : List Answer
  deriving DecidableEq, Repr

/-- Why the machine stops with a fault: for no reason. Every request returns a result (60_exceptions.md R300), and the block goes
on after it (R307, R310). -/
inductive Fault
  deriving DecidableEq, Repr

/-- Why the machine gives a unit no meaning. The spec's own refusals are results, not these (log entry 6). -/
inductive Refusal
  /-- An instruction without a meaning yet; raised by no arm of `exec`. Safe. -/
  | notModelled (mnemonic : String)
  /-- The host handed over a unit that is no instruction; raised by `step`. Safe: the machine stops. Log entry 21. -/
  | malformedUnit (why : DecodeError)
  deriving DecidableEq, Repr

/-- The machine before any construction: there is no session (41_controller_fsm.md R160), no request has been answered, and
nothing is pending. A session's own reset values are `Session.new`'s (10_state.md R41, 70_reset_and_hazards.md R340). -/
def State.reset : State where
  session := none
  earlier := []
  result := none
  pending := []
  answers := []

end Sys2Proof.Machine
end

