-- ==== Sys2Proof/Machine/Flags.lean ====
section
/-! DEFINITION. The flags of the three control registers and every computation on them. The numeric values are the spec's
supply (92_eei_decisions.md D2; log entry 17). -/

namespace Sys2Proof.Machine

/-! ## The named flag constants (30_encoding.md R81) -/

def displayOnFlag : Byte := 0x04
def displayOffFlag : Byte := 0x00
def cursorOnFlag : Byte := 0x02
def cursorOffFlag : Byte := 0x00
def blinkOnFlag : Byte := 0x01
def blinkOffFlag : Byte := 0x00
def entryLeftFlag : Byte := 0x02
def entryRightFlag : Byte := 0x00
def entryShiftIncrementFlag : Byte := 0x01
def entryShiftDecrementFlag : Byte := 0x00
def displayMoveFlag : Byte := 0x08
def cursorMoveFlag : Byte := 0x00
def moveRightFlag : Byte := 0x04
def moveLeftFlag : Byte := 0x00
def eightBitModeFlag : Byte := 0x10
def fourBitModeFlag : Byte := 0x00
def line2Flag : Byte := 0x08
def line1Flag : Byte := 0x00
def dots5x10Flag : Byte := 0x04
def dots5x8Flag : Byte := 0x00

/-! ## Register computations -/

/-- "set a bit" is `r | FLAG` (R81). -/
def setFlag (register flag : Byte) : Byte := register ||| flag

/-- "clear a bit" is `r & ~FLAG`, the 8-bit complement (R81). -/
def clearFlag (register flag : Byte) : Byte := register &&& ~~~flag

/-- One of two flag values. -/
def chooseFlag (condition : Bool) (on off : Byte) : Byte := if condition then on else off

/-- `InitialDisplayFunction(cfg)` (41_controller_fsm.md R163). -/
def initialDisplayFunction (numLines dotSize : Nat) : Byte :=
  fourBitModeFlag ||| line1Flag ||| dots5x8Flag
    ||| (if 1 < numLines then line2Flag else 0)
    ||| (if dotSize ≠ 0 ∧ numLines = 1 then dots5x10Flag else 0)

/-- The `display_control` that initialization step 6 sets (R169). -/
def initialDisplayControl : Byte := displayOnFlag ||| cursorOffFlag ||| blinkOffFlag

/-- The `entry_mode` that initialization step 8 sets (R171). -/
def initialEntryMode : Byte := entryLeftFlag ||| entryShiftDecrementFlag

/-- Whether a call of this event can fail: every collaborator call can, a wait cannot (60_exceptions.md R304). -/
def Event.canFail : Event → Bool
  | .wait _ => false
  | .pinOut _ | .pin _ _ | .pinRelease _ | .pwmSetup | .pwmInit _ | .pwmWidth _ _ _ | .pwmClear _ _ | .pwmTeardown
  | .i2cOpen _ | .i2cWrite _ _ | .i2cClose _ => true

/-- A claim event, whose failure is ResourceUnavailable (R303). -/
def Event.isClaim : Event → Bool
  | .pinOut _ | .pwmSetup | .pwmInit _ | .i2cOpen _ => true
  | .pin _ _ | .pinRelease _ | .pwmWidth _ _ _ | .pwmClear _ _ | .pwmTeardown | .i2cWrite _ _ | .i2cClose _
  | .wait _ => false

/-- The error a failing call raises: ResourceUnavailable for a claim (R303), IOFailure for any other (R302). -/
def errorOfFailing (e : Event) : ErrorResult := if e.isClaim then .resourceUnavailable e else .ioFailure e

/-- The status flag `io_fault` after the call that failed, if any: set by an IOFailure, never cleared, and not set by a claim
that fails (10_state.md R34; R302, R303). -/
def ioFaultAfter (before : Bool) : Option Event → Bool
  | none => before
  | some e => before || !e.isClaim

/-- The numeric codes of the error kinds (R300). -/
def ErrorResult.code : ErrorResult → Nat
  | .invalidArgument _ => 1
  | .resourceUnavailable _ => 2
  | .ioFailure _ => 3

end Sys2Proof.Machine
end

