-- ==== Sys2Proof/Machine/Operands.lean ====
section
/-! DEFINITION. Operand assembly: nibbles and expander bytes, command bytes, addresses, text layout, pulse widths. -/

namespace Sys2Proof.Machine

/-! ## Nibbles (42_framing.md R190) -/

/-- `(value & 0xF0) >> 4`: bits 7:4 of the value. -/
def highNibble (value : Nat) : Nibble := BitVec.ofNat 4 ((value &&& 0xF0) >>> 4)

/-- `value & 0x0F`: bits 3:0 of the value. -/
def lowNibble (value : Nat) : Nibble := BitVec.ofNat 4 (value &&& 0x0F)

/-! ## The I2C expander byte (30_encoding.md R71, R90; bit positions the spec's supply, log entry 17) -/

def i2cRs : Byte := 0x01
def i2cRw : Byte := 0x02
def i2cEn : Byte := 0x04
def i2cBl : Byte := 0x08

/-- The byte that carries nibble unit `(rs, n)` with enable level `e`: the backlight bit always 1, RW always 0. -/
def expanderByte (rs : Level) (n : Nibble) (e : Level) : Byte :=
  (n.setWidth 8 <<< 4) ||| i2cBl ||| (if e then i2cEn else 0) ||| (if rs then i2cRs else 0)

/-! ## Command bytes (R74, R88) -/

def clearDisplayCommand : Byte := 0x01
def returnHomeCommand : Byte := 0x02
def entryModeSetCommand : Byte := 0x04
def displayControlCommand : Byte := 0x08
def cursorShiftCommand : Byte := 0x10
def functionSetCommand : Byte := 0x20
def setCgramAddrCommand : Byte := 0x40
def setDdramAddrCommand : Byte := 0x80

/-- `ENTRY_MODE_SET` with its two fields (R77). -/
def entryModeSetByte (increment shift : Bool) : Byte :=
  entryModeSetCommand ||| chooseFlag increment entryLeftFlag entryRightFlag
    ||| chooseFlag shift entryShiftIncrementFlag entryShiftDecrementFlag

/-- `DISPLAY_CONTROL` with its three fields (R78). -/
def displayControlByte (displayOn cursorOn blinkOn : Bool) : Byte :=
  displayControlCommand ||| chooseFlag displayOn displayOnFlag displayOffFlag
    ||| chooseFlag cursorOn cursorOnFlag cursorOffFlag ||| chooseFlag blinkOn blinkOnFlag blinkOffFlag

/-- `CURSOR_SHIFT` with its two fields (R79). -/
def cursorShiftByte (moveDisplay moveRight : Bool) : Byte :=
  cursorShiftCommand ||| chooseFlag moveDisplay displayMoveFlag cursorMoveFlag
    ||| chooseFlag moveRight moveRightFlag moveLeftFlag

/-- `FUNCTION_SET` with its three fields (R80). -/
def functionSetByte (eightBit twoLines tallDots : Bool) : Byte :=
  functionSetCommand ||| chooseFlag eightBit eightBitModeFlag fourBitModeFlag
    ||| chooseFlag twoLines line2Flag line1Flag ||| chooseFlag tallDots dots5x10Flag dots5x8Flag

/-! ## Addresses (10_state.md R29, R38, R39; 43_operations.md R212, R215) -/

/-- `ROW_OFFSET` (R29). A row beyond the table is unreachable, and what it reads is a free value (log entry 11). -/
def rowOffset : Nat → Nat
  | 0 => 0x00
  | 1 => 0x40
  | 2 => 0x14
  | 3 => 0x54
  | row => Config.rowOffsetBeyondTable row

/-- `if row ≥ num_lines then num_lines - 1 else row` (R212). -/
def clampRow (numLines row : Nat) : Nat := if row ≥ numLines then numLines - 1 else row

/-- The DDRAM address of a row and column: "a plain unsigned add of the row base and the column" (R88). -/
def ddramAddress (numLines row col : Nat) : Nat := rowOffset (clampRow numLines row) + col

/-- The value `set_cursor` passes to `Command`: `SET_DDRAM_ADDR | address` (R212). -/
def setCursorValue (numLines row col : Nat) : Nat := setDdramAddrCommand.toNat ||| ddramAddress numLines row col

/-- The value `create_char` passes to `Command`: `SET_CGRAM_ADDR | ((location & 0x7) << 3)` (R215, R88). -/
def glyphSlotValue (location : Nat) : Nat := setCgramAddrCommand.toNat ||| ((location &&& 0x7) <<< 3)

/-! ## Text (43_operations.md R213) -/

/-- `SP`, the space code (the spec's supply, log entry 17). -/
def spaceCode : Nat := 0x20

/-- `SP^k`. -/
def spaces (k : Nat) : List Nat := List.replicate k spaceCode

/-- `Justify(s, W, j)`. -/
def justifyText (text : List Nat) (width : Nat) (j : Justify) : List Nat :=
  if text.length ≥ width then text.take width
  else
    let pad := width - text.length
    match j with
    | .left => text ++ spaces pad
    | .right => spaces pad ++ text
    | .center => spaces (pad / 2) ++ text ++ spaces (pad - pad / 2)

/-! ## Backlight pulse width (40_transport.md R131) -/

/-- `clamp(i, 0, 100)`. -/
def clampPercent (i : Int) : Nat := if i < 0 then 0 else if i > 100 then 100 else i.toNat

/-- `PwmWidth(i) = floor(clamp(i, 0, 100) * PWM_RANGE / 100)`. -/
def pulseWidth (range : Nat) (intensity : Int) : Nat := clampPercent intensity * range / 100

/-! ## Construction arguments (41_controller_fsm.md R161, 00_scope.md R6) -/

def legalColumns (columns : Nat) : Bool := 1 ≤ columns && columns ≤ 40
def legalLines (lines : Nat) : Bool := 1 ≤ lines && lines ≤ 4

/-- The pins of a GPIO construction that are present, in the order R161 names them. -/
def pinsPresent (rs en : Pin) (dataPins : List Pin) (bl rw : Option Pin) : List Pin :=
  rs :: en :: dataPins ++ bl.toList ++ rw.toList

/-- "pairwise distinct" (R161). -/
def pairwiseDistinct (pins : List Pin) : Bool := decide pins.Nodup

end Sys2Proof.Machine
end

