-- ==== Sys2Proof/Machine/Ops.lean ====
section
/-! DEFINITION. The shared operations: attempting a list of events, the sequencer of a request, raising an error, refusing,
admission, and taking the next unit from the host. -/

namespace Sys2Proof.Machine

/-! ## Attempting events (00_scope.md R10 `Emit`, `Call`; 60_exceptions.md R304, R306) -/

/-- What came of a list of events: those that were issued, the answers not used, and the call that failed. -/
structure Attempt where
  emitted : List Event
  left : List Answer
  failing : Option Event
  deriving DecidableEq, Repr

/-- One more event issued before the rest. -/
def Attempt.after (e : Event) (rest : Attempt) : Attempt := { rest with emitted := e :: rest.emitted }

/-- Issue the events in order, each call taking the next answer, up to the end or to the first call that fails: that call is
issued ("it was attempted"), nothing after it is (R306). A call beyond the listed answers is answered `ok` (log entry 5). -/
def attempt : List Event → List Answer → Attempt
  | [], answers => ⟨[], answers, none⟩
  | e :: es, answers =>
      if e.canFail then
        match answers with
        | .fail :: left => ⟨[e], left, some e⟩
        | .ok :: left => (attempt es left).after e
        | [] => (attempt es []).after e
      else (attempt es answers).after e

/-- Issue every event whatever the answers, remembering the first that failed: the rule of `release` (40_transport.md
R134). -/
def attemptAll : List Event → List Answer → Attempt
  | [], answers => ⟨[], answers, none⟩
  | e :: es, answers =>
      if e.canFail then
        match answers with
        | .fail :: left => { (attemptAll es left).after e with failing := some e }
        | .ok :: left => (attemptAll es left).after e
        | [] => (attemptAll es []).after e
      else (attemptAll es answers).after e

/-! ## The sequencer of one request -/

/-- Why a request's sequence ended before its last event. -/
inductive Stop
  /-- An error result (60_exceptions.md R300). -/
  | error (e : ErrorResult)
  /-- A refusal met inside the sequence (60_exceptions.md R310). -/
  | refusal (r : RefusalReason)
  deriving DecidableEq, Repr

/-- A request in progress: the session, the answers still to come, and why it has stopped. -/
structure Sequencer where
  ses : Session
  answers : List Answer
  stop : Option Stop
  deriving DecidableEq, Repr

/-- A request begins. -/
def Sequencer.start (ses : Session) (answers : List Answer) : Sequencer := ⟨ses, answers, none⟩

/-- The session after an attempt: its events appended to the trace, and `io_fault` as R302 and R303 say. -/
def Session.record (ses : Session) (a : Attempt) : Session :=
  { ses with trace := ses.trace ++ a.emitted, ioFault := ioFaultAfter ses.ioFault a.failing }

/-- RAISING AN ERROR, the block's one form of exception entry (60_exceptions.md R306): the attempt is recorded and, if a call
failed, the request ends with that call's error; nothing else of the session changes. There is no handler and no return from
one (R307). -/
def Sequencer.settle (q : Sequencer) (a : Attempt) : Sequencer :=
  ⟨q.ses.record a, a.left, a.failing.map fun e => .error (errorOfFailing e)⟩

/-- Issue events up to the first failing call; nothing once the request has ended. -/
def Sequencer.emit (es : List Event) (q : Sequencer) : Sequencer :=
  match q.stop with
  | some _ => q
  | none => q.settle (attempt es q.answers)

/-- `Wait(us)` (40_transport.md R136). -/
def Sequencer.wait (us : Nat) (q : Sequencer) : Sequencer := q.emit [.wait us]

/-- Issue every event, reporting the first that failed (40_transport.md R134). -/
def Sequencer.emitAll (es : List Event) (q : Sequencer) : Sequencer :=
  match q.stop with
  | some _ => q
  | none => q.settle (attemptAll es q.answers)

/-- `r <- v`: a write of session fields; nothing once the request has ended. -/
def Sequencer.write (f : Session → Session) (q : Sequencer) : Sequencer :=
  match q.stop with
  | some _ => q
  | none => { q with ses := f q.ses }

/-- A read of a control register: "must fault, not supply 0" where it holds no value (10_state.md R28); that fault is the refusal
UnwrittenRegister (93_implementation_defined.md U15, 60_exceptions.md R311; log entry 9). -/
def Sequencer.readRegister (value : Option Byte) (k : Byte → Sequencer → Sequencer) (q : Sequencer) : Sequencer :=
  match q.stop with
  | some _ => q
  | none =>
      match value with
      | some v => k v q
      | none => { q with stop := some (.refusal .unwrittenRegister) }

/-! ## The end of a request -/

/-- The machine with the session, the answers and the result a request leaves. -/
def State.finish (s : State) (ses : Session) (answers : List Answer) (result : RequestResult) : State :=
  { s with session := some ses, answers := answers, result := some result }

/-- A REFUSAL (60_exceptions.md R310): no event, no change but `refused <- 1` in the session, and the result. Without a session
it is "a property of the result" alone (R311). -/
def State.refuse (s : State) (r : RefusalReason) : State :=
  { s with session := s.session.map fun ses => { ses with refused := true }, result := some (.refused r) }

/-- What a request returns to the host (60_exceptions.md R300): `Ok`, the error it ended with, or a refusal, which keeps nothing
of the sequence (R310). -/
def Sequencer.outcome (s : State) (q : Sequencer) : Host.Outcome State Fault Refusal :=
  match q.stop with
  | none => .next (s.finish q.ses q.answers .ok)
  | some (.error e) => .next (s.finish q.ses q.answers (.err e))
  | some (.refusal r) => .next (s.refuse r)

/-- A refusal of a construction request: "creates no session (so `refused` is a property of the result, not of a session)"
(R311). -/
def State.refuseConstruction (s : State) (r : RefusalReason) : State := { s with result := some (.refused r) }

/-- An InvalidArgument of a construction request: "no session is created and no event is emitted" (41_controller_fsm.md
R161). -/
def State.rejectConstruction (s : State) (info : BadArgument) : State :=
  { s with result := some (.err (.invalidArgument info)) }

/-! ## Admission and validation (60_exceptions.md R305; 43_operations.md R218, R219) -/

/-- A request that is admitted only in Ready: first the phase, then the argument checks in their order, then the sequence.
Without a session, and in every other phase, it is refused (R218, 41_controller_fsm.md R160; log entries 7, 15). -/
def runReady (s : State) (check : Session → Option BadArgument) (body : Sequencer → Sequencer) :
    Host.Outcome State Fault Refusal :=
  match s.session with
  | none => .next (s.refuse .notReady)
  | some ses =>
      if ses.phase = .ready then
        match check ses with
        | some info => .next (s.finish ses s.answers (.err (.invalidArgument info)))
        | none => (body (.start ses s.answers)).outcome s
      else .next (s.refuse .notReady)

/-- A request without argument checks. -/
def noCheck (_ : Session) : Option BadArgument := none

/-- The phases in which the block may be sending: during initialization and in Ready (41_controller_fsm.md R160). -/
def Phase.isLive : Phase → Bool
  | .uninitialized | .handshakeIn4BitMode | .ready => true
  | .failed | .released => false

/-- A wire unit alone, one micro-step of a request (10_state.md R21), where there is a session whose controller may be
sending; refused otherwise. DESIGN CHOICE: log entry 1. -/
def runUnit (s : State) (body : Sequencer → Sequencer) : Host.Outcome State Fault Refusal :=
  match s.session with
  | none => .next (s.refuse .notReady)
  | some ses => if ses.phase.isLive then (body (.start ses s.answers)).outcome s else .next (s.refuse .notReady)

/-! ## Taking the next unit -/

/-- The next unit of the host, and the machine with it taken; `none` when the host has issued nothing. -/
def takeUnit (s : State) : Option (RawUnit × State) :=
  match s.pending with
  | [] => none
  | u :: rest => some (u, { s with pending := rest })

/-- The machine with a unit placed where the next step takes it. -/
def State.withUnit (s : State) (u : RawUnit) : State := { s with pending := u :: s.pending }

end Sys2Proof.Machine
end

