-- ==== Sys2Proof/Machine/Transport.lean ====
section
/-! DEFINITION. The transport's six capabilities (40_transport.md R120), each one function with one arm per variant, and the
framing of protocol units (42_framing.md). No primitive reads or writes the phase or a control register (R121). -/

namespace Sys2Proof.Machine

/-! ## The waits (70_reset_and_hazards.md R350), in microseconds -/

def edgeWait : Nat := 1
def pulseSettleWait : Nat := 100
def i2cEnableWait : Nat := 5
def i2cSettleWait : Nat := 100
def powerOnWait : Nat := 50000
def firstHandshakeWait : Nat := 4500
def secondHandshakeWait : Nat := 4500
def thirdHandshakeWait : Nat := 150
def longCommandWait : Nat := 2000

/-! ## initialize (R122, R123) -/

/-- The claims of `initialize`, each a call and the resource its success adds, in order. -/
def claims : Transport → List (Event × Resource)
  | .gpio g =>
      (g.rsPin :: g.enablePin :: g.rwPin.toList ++ [g.dataPins.d4, g.dataPins.d5, g.dataPins.d6, g.dataPins.d7]).map
          (fun p => (.pinOut p, .pin p))
        ++ (if g.backlightPin.isSome then [(.pwmSetup, .pwmSub), (.pwmInit g.pwmChannel, .pwmChan g.pwmChannel)] else [])
  | .i2c address => [(.i2cOpen address, .bus address)]

/-- One claim: the call, then the resource joins `claimed` if the call succeeded. -/
def Sequencer.claim (q : Sequencer) (c : Event × Resource) : Sequencer :=
  (q.emit [c.1]).write fun ses => { ses with claimed := ses.claimed ++ [c.2] }

/-- `initialize()`: the resources claimed before a failing claim stay in `claimed` (R122). -/
def Sequencer.initialize (t : Transport) (q : Sequencer) : Sequencer := (claims t).foldl Sequencer.claim q

/-! ## begin (R124, R125) -/

/-- `begin()`: RS, Enable and RW low; nothing on I2C. -/
def beginEvents : Transport → List Event
  | .gpio g => .pin g.rsPin false :: .pin g.enablePin false :: g.rwPin.toList.map (fun p => .pin p false)
  | .i2c _ => []

/-! ## send_nibble (R126, R127, R128) -/

/-- `PulseEnable()` (R127). -/
def pulseEvents (enablePin : Pin) : List Event :=
  [.pin enablePin false, .wait edgeWait, .pin enablePin true, .wait edgeWait, .pin enablePin false, .wait pulseSettleWait]

/-- `SendNibble(rs, n)` of either variant. -/
def nibbleEvents : Transport → Level → Nibble → List Event
  | .gpio g, rs, n =>
      [.pin g.rsPin rs, .pin g.dataPins.d4 (n.getLsbD 0), .pin g.dataPins.d5 (n.getLsbD 1),
        .pin g.dataPins.d6 (n.getLsbD 2), .pin g.dataPins.d7 (n.getLsbD 3)] ++ pulseEvents g.enablePin
  | .i2c address, rs, n =>
      [.i2cWrite address (expanderByte rs n true), .wait i2cEnableWait, .i2cWrite address (expanderByte rs n false),
        .wait i2cSettleWait]

/-! ## Framing (42_framing.md R190, R191) -/

/-- `Send(rs, value)`: high nibble first. -/
def sendEvents (t : Transport) (rs : Level) (value : Nat) : List Event :=
  nibbleEvents t rs (highNibble value) ++ nibbleEvents t rs (lowNibble value)

/-- `SendNibble(rs, n)` as a step of a request. -/
def Sequencer.sendNibble (rs : Level) (n : Nibble) (q : Sequencer) : Sequencer :=
  q.emit (nibbleEvents q.ses.cfg.transport rs n)

/-- `Send(rs, value)`: if the first nibble fails, the second is not sent (R193). -/
def Sequencer.send (rs : Level) (value : Nat) (q : Sequencer) : Sequencer :=
  (q.sendNibble rs (highNibble value)).sendNibble rs (lowNibble value)

/-- `Command(v) = Send(0, v)` (R191). -/
def Sequencer.command (value : Nat) (q : Sequencer) : Sequencer := q.send false value

/-- `WriteData(v) = Send(1, v)` (R191). -/
def Sequencer.writeData (value : Nat) (q : Sequencer) : Sequencer := q.send true value

/-- A list of data writes, first to last. -/
def Sequencer.writeAllData (values : List Nat) (q : Sequencer) : Sequencer :=
  values.foldl (fun q value => q.writeData value) q

/-- A CLEAR_DISPLAY or RETURN_HOME and the wait that follows it (R192). -/
def Sequencer.longCommand (value : Nat) (q : Sequencer) : Sequencer := (q.command value).wait longCommandWait

/-! ## Backlight (R130 to R133) -/

/-- `enable_backlight(intensity)`: nothing without a backlight pin, nothing on I2C. -/
def enableBacklightEvents : Transport → Int → List Event
  | .gpio g, intensity =>
      g.backlightPin.toList.map fun bl => .pwmWidth g.pwmChannel bl (pulseWidth g.pwmRange intensity)
  | .i2c _, _ => []

/-- `disable_backlight()`: nothing without a backlight pin, nothing on I2C. -/
def disableBacklightEvents : Transport → List Event
  | .gpio g => g.backlightPin.toList.map fun bl => .pwmClear g.pwmChannel bl
  | .i2c _ => []

/-! ## release (R134) -/

/-- The `bl` of R134's pseudocode. A session that claimed a PWM channel has a backlight pin; for any other the pin is a free
value (log entry 12). -/
def releasedBacklightPin : Transport → Pin
  | .gpio g => g.backlightPin.getD Config.absentBacklightPin
  | .i2c _ => Config.absentBacklightPin

/-- The call that releases a resource. -/
def releaseEvent (t : Transport) : Resource → Event
  | .pin p => .pinRelease p
  | .pwmChan ch => .pwmClear ch (releasedBacklightPin t)
  | .pwmSub => .pwmTeardown
  | .bus a => .i2cClose a

/-- The calls of `release()`: "last claimed is released first". -/
def releaseEvents (t : Transport) (claimed : List Resource) : List Event := claimed.reverse.map (releaseEvent t)

/-- `release()`: every release is attempted, `claimed` is emptied, and the first failure is reported. -/
def Sequencer.release (q : Sequencer) : Sequencer :=
  let done := q.emitAll (releaseEvents q.ses.cfg.transport q.ses.claimed)
  { done with ses := { done.ses with claimed := [] } }

end Sys2Proof.Machine
end

