-- ==== Sys2Proof/Machine/Lifecycle.lean ====
section
/-! DEFINITION. Construction with its initialization sequence (41_controller_fsm.md), cleanup and the backlight requests
(44_session.md), and the reserved request opcodes (60_exceptions.md R311). -/

namespace Sys2Proof.Machine

/-! ## The initialization sequence (R164 to R171) -/

/-- A session at the start of construction (R162, 10_state.md R41). -/
def Session.new (cfg : SessionConfig) : Session where
  phase := .uninitialized
  cfg := cfg
  displayFunction := none
  displayControl := none
  entryMode := none
  claimed := []
  ioFault := false
  refused := false
  trace := []

/-- `display_function <- InitialDisplayFunction(cfg)` (R162, R163). -/
def Sequencer.setDisplayFunction (q : Sequencer) : Sequencer :=
  q.write fun ses => { ses with displayFunction := some (initialDisplayFunction ses.cfg.numLines ses.cfg.dotSize) }

/-- Step 1: the power-on settle (R164). -/
def Sequencer.step1 (q : Sequencer) : Sequencer := q.wait powerOnWait

/-- Step 2: transport `begin()` (R165). -/
def Sequencer.step2 (q : Sequencer) : Sequencer := q.emit (beginEvents q.ses.cfg.transport)

/-- Step 3: the nibble 0x3 three times, with the delays after each (R166). -/
def Sequencer.step3 (q : Sequencer) : Sequencer :=
  let first := (q.sendNibble false 0x3).wait firstHandshakeWait
  let second := (first.sendNibble false 0x3).wait secondHandshakeWait
  (second.sendNibble false 0x3).wait thirdHandshakeWait

/-- Step 4: the nibble 0x2; then the phase is HandshakeIn4BitMode (R167). -/
def Sequencer.step4 (q : Sequencer) : Sequencer :=
  (q.sendNibble false 0x2).write fun ses => { ses with phase := .handshakeIn4BitMode }

/-- Step 5: `Command(FUNCTION_SET | display_function)` (R168). -/
def Sequencer.step5 (q : Sequencer) : Sequencer :=
  q.readRegister q.ses.displayFunction fun df => Sequencer.command (functionSetCommand ||| df).toNat

/-- Step 6: `display_control` set, then sent (R169). -/
def Sequencer.step6 (q : Sequencer) : Sequencer :=
  (q.write fun ses => { ses with displayControl := some initialDisplayControl }).command
    (displayControlCommand ||| initialDisplayControl).toNat

/-- Step 7: clear the display (R170). -/
def Sequencer.step7 (q : Sequencer) : Sequencer := q.longCommand clearDisplayCommand.toNat

/-- Step 8: `entry_mode` set, then sent; then the phase is Ready (R171). -/
def Sequencer.step8 (q : Sequencer) : Sequencer :=
  let sent := (q.write fun ses => { ses with entryMode := some initialEntryMode }).command
    (entryModeSetCommand ||| initialEntryMode).toNat
  sent.write fun ses => { ses with phase := .ready }

/-- The construction sequence after validation (R162): `initialize`, then the steps in order. -/
def constructionSequence (cfg : SessionConfig) (answers : List Answer) : Sequencer :=
  let begun := (Sequencer.start (Session.new cfg) answers).setDisplayFunction
  (begun.initialize cfg.transport).step1.step2.step3.step4.step5.step6.step7.step8

/-- An error during construction: `phase <- Failed`, all else kept (R173). -/
def Sequencer.failConstruction (q : Sequencer) : Sequencer :=
  match q.stop with
  | none => q
  | some _ => { q with ses := { q.ses with phase := .failed } }

/-- The machine when a construction begins: the session there was joins the earlier ones (log entry 8). -/
def State.retireSession (s : State) : State := { s with session := none, earlier := s.earlier ++ s.session.toList }

/-- `Construct(cfg)` after validation. -/
def runConstruction (cfg : SessionConfig) (s : State) : Host.Outcome State Fault Refusal :=
  ((constructionSequence cfg s.answers).failConstruction).outcome s.retireSession

/-- The checks of R161 that both variants share, in order. -/
def geometryProblem (columns lines : Nat) : Option BadArgument :=
  if !legalColumns columns then some (.columns columns)
  else if !legalLines lines then some (.lines lines)
  else none

/-- CONSTRUCT_GPIO, request 0x00 (44_session.md R280): the checks of `ValidateConfig` in order (R161), then `Construct`. -/
def execConstructGpio (rs en : Pin) (dataPins : List Pin) (bl rw : Option Pin) (columns lines dotSize : Nat) (s : State) :
    Host.Outcome State Fault Refusal :=
  if dataPins.length = 8 then .next (s.refuseConstruction .eightBitBus)
  else
    match dataPins with
    | [d4, d5, d6, d7] =>
        if !pairwiseDistinct (pinsPresent rs en dataPins bl rw) then .next (s.refuseConstruction .duplicatePins)
        else
          match geometryProblem columns lines with
          | some info => .next (s.rejectConstruction info)
          | none =>
              runConstruction
                ⟨.gpio ⟨rs, en, ⟨d4, d5, d6, d7⟩, bl, rw, Config.pwmChannel, Config.pwmRange⟩, columns, lines, dotSize⟩ s
    | _ => .next (s.rejectConstruction (.dataPins dataPins))

/-- CONSTRUCT_I2C, request 0x01 (44_session.md R281). -/
def execConstructI2c (address : BusAddress) (columns lines dotSize : Nat) (s : State) : Host.Outcome State Fault Refusal :=
  match geometryProblem columns lines with
  | some info => .next (s.rejectConstruction info)
  | none => runConstruction ⟨.i2c address, columns, lines, dotSize⟩ s

/-! ## Lifecycle requests -/

/-- ENABLE_BACKLIGHT, request 0x14 (44_session.md R284). -/
def execEnableBacklight (intensity : Int) (s : State) : Host.Outcome State Fault Refusal :=
  runReady s noCheck fun q => q.emit (enableBacklightEvents q.ses.cfg.transport intensity)

/-- DISABLE_BACKLIGHT, request 0x15 (R285). -/
def execDisableBacklight (s : State) : Host.Outcome State Fault Refusal :=
  runReady s noCheck fun q => q.emit (disableBacklightEvents q.ses.cfg.transport)

/-- CLEANUP, request 0x16 (R283), "Admitted in `Ready`, `Failed` and `Released`". -/
def execCleanup (s : State) : Host.Outcome State Fault Refusal :=
  match s.session with
  | none => .next (s.refuse .notReady)
  | some ses =>
      match ses.phase with
      | .released => .next (s.finish ses s.answers .ok)
      | .ready | .failed =>
          (((Sequencer.start ses s.answers).write fun ses => { ses with phase := .released }).release).outcome s
      | .uninitialized | .handshakeIn4BitMode => .next (s.refuse .notReady)

/-! ## Reserved opcodes -/

/-- The reserved opcode 0x17: refused, `ReservedOpcode` (60_exceptions.md R311), whatever the phase (R305). -/
def execReservedRequest17 (s : State) : Host.Outcome State Fault Refusal := .next (s.refuse .reservedOpcode)

/-- The reserved opcodes 0x18..0x1F: refused, `ReservedOpcode` (R311), whatever the phase (R305). -/
def execReservedRequest18 (_low : BitVec 3) (s : State) : Host.Outcome State Fault Refusal :=
  .next (s.refuse .reservedOpcode)

end Sys2Proof.Machine
end

