-- ==== Sys2Proof/Machine/Operations.lean ====
section
/-! DEFINITION. The public operations (43_operations.md), each admitted only in Ready (R218), its arguments checked before
its first event and its register written before it is sent (R219). -/

namespace Sys2Proof.Machine

/-! ## Clear and home -/

/-- `clear()` (R210). -/
def execClear (s : State) : Host.Outcome State Fault Refusal :=
  runReady s noCheck (Sequencer.longCommand clearDisplayCommand.toNat)

/-- `home()` (R211). -/
def execHome (s : State) : Host.Outcome State Fault Refusal :=
  runReady s noCheck (Sequencer.longCommand returnHomeCommand.toNat)

/-! ## Cursor, text and glyphs -/

/-- `if col ≥ columns: raise InvalidArgument(col)` (R212, R216). -/
def columnProblem (col : Nat) (ses : Session) : Option BadArgument :=
  if col ≥ ses.cfg.columns then some (.col col) else none

/-- The body of `SetCursor(row, col)` after its check (R212). -/
def Sequencer.setCursor (row col : Nat) (q : Sequencer) : Sequencer :=
  q.command (setCursorValue q.ses.cfg.numLines row col)

/-- `set_cursor(row, col)` (R212). -/
def execSetCursor (row col : Nat) (s : State) : Host.Outcome State Fault Refusal :=
  runReady s (columnProblem col) (Sequencer.setCursor row col)

/-- `write_text(text, justify)` (R214): the laid-out text, one data write a code. -/
def execWriteText (text : List Nat) (justify : Justify) (s : State) : Host.Outcome State Fault Refusal :=
  runReady s noCheck fun q => q.writeAllData (justifyText text q.ses.cfg.columns justify)

/-- `write_raw(glyph_index, row, col)` (R216). -/
def execWriteRaw (glyph row col : Nat) (s : State) : Host.Outcome State Fault Refusal :=
  runReady s (columnProblem col) fun q => (q.setCursor row col).writeData glyph

/-- `if length(bitmap) ≠ 8: raise InvalidArgument(bitmap)` (R215). -/
def bitmapProblem (bitmap : List Nat) (_ : Session) : Option BadArgument :=
  if bitmap.length ≠ 8 then some (.bitmap bitmap) else none

/-- `create_char(location, bitmap)` (R215): the slot's address, then the rows, row 0 first. -/
def execCreateChar (location : Nat) (bitmap : List Nat) (s : State) : Host.Outcome State Fault Refusal :=
  runReady s (bitmapProblem bitmap) fun q => (q.command (glyphSlotValue location)).writeAllData bitmap

/-! ## Display-control toggles (R220 to R225) -/

/-- A read-modify-write of `display_control` and the full resend of the new value (10_state.md R27). -/
def Sequencer.updateDisplayControl (f : Byte → Byte) (q : Sequencer) : Sequencer :=
  q.readRegister q.ses.displayControl fun dc q =>
    (q.write fun ses => { ses with displayControl := some (f dc) }).command (displayControlCommand ||| f dc).toNat

/-- `display()` (R220). -/
def execDisplay (s : State) : Host.Outcome State Fault Refusal :=
  runReady s noCheck (Sequencer.updateDisplayControl fun dc => setFlag dc displayOnFlag)

/-- `no_display()` (R221). -/
def execNoDisplay (s : State) : Host.Outcome State Fault Refusal :=
  runReady s noCheck (Sequencer.updateDisplayControl fun dc => clearFlag dc displayOnFlag)

/-- `cursor()` (R222). -/
def execCursor (s : State) : Host.Outcome State Fault Refusal :=
  runReady s noCheck (Sequencer.updateDisplayControl fun dc => setFlag dc cursorOnFlag)

/-- `no_cursor()` (R223). -/
def execNoCursor (s : State) : Host.Outcome State Fault Refusal :=
  runReady s noCheck (Sequencer.updateDisplayControl fun dc => clearFlag dc cursorOnFlag)

/-- `blink()` (R224). -/
def execBlink (s : State) : Host.Outcome State Fault Refusal :=
  runReady s noCheck (Sequencer.updateDisplayControl fun dc => setFlag dc blinkOnFlag)

/-- `no_blink()` (R225). -/
def execNoBlink (s : State) : Host.Outcome State Fault Refusal :=
  runReady s noCheck (Sequencer.updateDisplayControl fun dc => clearFlag dc blinkOnFlag)

/-! ## Display shift (R226, R227) -/

/-- `scroll_left()` (R226). -/
def execScrollLeft (s : State) : Host.Outcome State Fault Refusal :=
  runReady s noCheck (Sequencer.command (cursorShiftCommand ||| displayMoveFlag ||| moveLeftFlag).toNat)

/-- `scroll_right()` (R227). -/
def execScrollRight (s : State) : Host.Outcome State Fault Refusal :=
  runReady s noCheck (Sequencer.command (cursorShiftCommand ||| displayMoveFlag ||| moveRightFlag).toNat)

/-! ## Entry-mode operations (R228 to R231) -/

/-- A read-modify-write of `entry_mode` and the full resend of the new value (10_state.md R27). -/
def Sequencer.updateEntryMode (f : Byte → Byte) (q : Sequencer) : Sequencer :=
  q.readRegister q.ses.entryMode fun em q =>
    (q.write fun ses => { ses with entryMode := some (f em) }).command (entryModeSetCommand ||| f em).toNat

/-- `left_to_right()` (R228). -/
def execLeftToRight (s : State) : Host.Outcome State Fault Refusal :=
  runReady s noCheck (Sequencer.updateEntryMode fun em => setFlag em entryLeftFlag)

/-- `right_to_left()` (R229). -/
def execRightToLeft (s : State) : Host.Outcome State Fault Refusal :=
  runReady s noCheck (Sequencer.updateEntryMode fun em => clearFlag em entryLeftFlag)

/-- `autoscroll()` (R230). -/
def execAutoscroll (s : State) : Host.Outcome State Fault Refusal :=
  runReady s noCheck (Sequencer.updateEntryMode fun em => setFlag em entryShiftIncrementFlag)

/-- `no_autoscroll()` (R231). -/
def execNoAutoscroll (s : State) : Host.Outcome State Fault Refusal :=
  runReady s noCheck (Sequencer.updateEntryMode fun em => clearFlag em entryShiftIncrementFlag)

end Sys2Proof.Machine
end

