-- ==== Sys2Proof/Machine/Wire.lean ====
section
/-! DEFINITION. The meanings of the wire rows: one protocol unit, or one lone nibble unit, sent by the session's transport.
A unit alone writes no register and no phase (40_transport.md R121); log entries 1, 24, 26. -/

namespace Sys2Proof.Machine

/-- CLEAR_DISPLAY (30_encoding.md R75), "each followed by `Wait(2000)`" (42_framing.md R192). -/
def execClearDisplay (s : State) : Host.Outcome State Fault Refusal :=
  runUnit s (Sequencer.longCommand clearDisplayCommand.toNat)

/-- RETURN_HOME (R76), followed by `Wait(2000)` (R192). -/
def execReturnHome (s : State) : Host.Outcome State Fault Refusal :=
  runUnit s (Sequencer.longCommand returnHomeCommand.toNat)

/-- ENTRY_MODE_SET (R77). -/
def execEntryModeSet (increment shift : Bool) (s : State) : Host.Outcome State Fault Refusal :=
  runUnit s (Sequencer.command (entryModeSetByte increment shift).toNat)

/-- DISPLAY_CONTROL (R78). -/
def execDisplayControl (displayOn cursorOn blinkOn : Bool) (s : State) : Host.Outcome State Fault Refusal :=
  runUnit s (Sequencer.command (displayControlByte displayOn cursorOn blinkOn).toNat)

/-- CURSOR_SHIFT (R79). -/
def execCursorShift (moveDisplay moveRight : Bool) (s : State) : Host.Outcome State Fault Refusal :=
  runUnit s (Sequencer.command (cursorShiftByte moveDisplay moveRight).toNat)

/-- FUNCTION_SET (R80). -/
def execFunctionSet (eightBit twoLines tallDots : Bool) (s : State) : Host.Outcome State Fault Refusal :=
  runUnit s (Sequencer.command (functionSetByte eightBit twoLines tallDots).toNat)

/-- SET_CGRAM_ADDR (R82). -/
def execSetCgramAddr (address : BitVec 6) (s : State) : Host.Outcome State Fault Refusal :=
  runUnit s (Sequencer.command (setCgramAddrCommand ||| address.setWidth 8).toNat)

/-- SET_DDRAM_ADDR (R83). -/
def execSetDdramAddr (address : BitVec 7) (s : State) : Host.Outcome State Fault Refusal :=
  runUnit s (Sequencer.command (setDdramAddrCommand ||| address.setWidth 8).toNat)

/-- DATA_WRITE (R84). -/
def execDataWrite (value : Byte) (s : State) : Host.Outcome State Fault Refusal :=
  runUnit s (Sequencer.writeData value.toNat)

/-- The handshake nibble 0x3, RS = 0 (R85). -/
def execHandshakeNibble3 (s : State) : Host.Outcome State Fault Refusal :=
  runUnit s (Sequencer.sendNibble false 0x3)

/-- The handshake nibble 0x2, RS = 0 (R85). -/
def execHandshakeNibble2 (s : State) : Host.Outcome State Fault Refusal :=
  runUnit s (Sequencer.sendNibble false 0x2)

end Sys2Proof.Machine
end

