-- ==== Sys2Proof/Machine/Dispatch.lean ====
section
/-! DEFINITION. One arm per row of spec/opcode_table.json, each a direct call of its meaning. -/

namespace Sys2Proof.Machine

def exec (i : Instr) (s : State) : Host.Outcome State Fault Refusal :=
  match i with
  | .clearDisplay => Sys2Proof.Machine.execClearDisplay s
  | .returnHome => Sys2Proof.Machine.execReturnHome s
  | .entryModeSet increment shift => Sys2Proof.Machine.execEntryModeSet increment shift s
  | .displayControl displayOn cursorOn blinkOn => Sys2Proof.Machine.execDisplayControl displayOn cursorOn blinkOn s
  | .cursorShift moveDisplay moveRight => Sys2Proof.Machine.execCursorShift moveDisplay moveRight s
  | .functionSet eightBit twoLines tallDots => Sys2Proof.Machine.execFunctionSet eightBit twoLines tallDots s
  | .setCgramAddr address => Sys2Proof.Machine.execSetCgramAddr address s
  | .setDdramAddr address => Sys2Proof.Machine.execSetDdramAddr address s
  | .dataWrite value => Sys2Proof.Machine.execDataWrite value s
  | .handshakeNibble3 => Sys2Proof.Machine.execHandshakeNibble3 s
  | .handshakeNibble2 => Sys2Proof.Machine.execHandshakeNibble2 s
  | .constructGpio rs en pins bl rw columns lines dot => Sys2Proof.Machine.execConstructGpio rs en pins bl rw columns lines dot s
  | .constructI2c address columns lines dot => Sys2Proof.Machine.execConstructI2c address columns lines dot s
  | .clear => Sys2Proof.Machine.execClear s
  | .home => Sys2Proof.Machine.execHome s
  | .setCursor row col => Sys2Proof.Machine.execSetCursor row col s
  | .writeText text justify => Sys2Proof.Machine.execWriteText text justify s
  | .writeRaw glyph row col => Sys2Proof.Machine.execWriteRaw glyph row col s
  | .createChar location bitmap => Sys2Proof.Machine.execCreateChar location bitmap s
  | .display => Sys2Proof.Machine.execDisplay s
  | .noDisplay => Sys2Proof.Machine.execNoDisplay s
  | .cursor => Sys2Proof.Machine.execCursor s
  | .noCursor => Sys2Proof.Machine.execNoCursor s
  | .blink => Sys2Proof.Machine.execBlink s
  | .noBlink => Sys2Proof.Machine.execNoBlink s
  | .scrollLeft => Sys2Proof.Machine.execScrollLeft s
  | .scrollRight => Sys2Proof.Machine.execScrollRight s
  | .leftToRight => Sys2Proof.Machine.execLeftToRight s
  | .rightToLeft => Sys2Proof.Machine.execRightToLeft s
  | .autoscroll => Sys2Proof.Machine.execAutoscroll s
  | .noAutoscroll => Sys2Proof.Machine.execNoAutoscroll s
  | .enableBacklight intensity => Sys2Proof.Machine.execEnableBacklight intensity s
  | .disableBacklight => Sys2Proof.Machine.execDisableBacklight s
  | .cleanup => Sys2Proof.Machine.execCleanup s
  | .reservedRequest17 => Sys2Proof.Machine.execReservedRequest17 s
  | .reservedRequest18 low => Sys2Proof.Machine.execReservedRequest18 low s

end Sys2Proof.Machine
end

