-- ==== Sys2Proof/Machine/Step.lean ====
section
/-! DEFINITION. One step of the machine: one request of the host, run to completion (20_memory.md R58, 10_state.md R21). -/

namespace Sys2Proof.Machine

/-- Take the next unit and run the instruction it decodes to. With nothing pending the block is idle (60_exceptions.md R318;
log entry 14). A unit that is no instruction stops the machine by name (log entry 21). -/
def step (s : State) : Host.Outcome State Fault Refusal :=
  match takeUnit s with
  | none => .next s
  | some (u, taken) =>
      match decode u with
      | .ok i => exec i taken
      | .error why => .refused (.malformedUnit why)

/-- The machine with a table word placed where the next step takes its unit (log entry 2). -/
def State.withFetchWord (s : State) (nbits w : Nat) : State := s.withUnit (RawUnit.ofTableWord nbits w)

end Sys2Proof.Machine
end

