-- ==== Sys2Proof/Safety.lean ====
section
/-! DEFINITION. The terms in which claims about a run are made: the premise "no call fails", the effect of a fixed event list,
time bounds, the units the wires carry, and the invariants of a session. Nothing here is used by the machine. -/

namespace Sys2Proof.Machine

/-! ## Answers and event lists -/

/-- "no call fails" (60_exceptions.md R304), as a premise. -/
abbrev NoCallFails (s : State) : Prop := Answer.fail ∉ s.answers

/-- The current session is `ses`, in phase Ready. -/
def Ready (s : State) (ses : Session) : Prop := s.session = some ses ∧ ses.phase = .ready

/-- The current session is `ses`, and its controller may be sending. -/
def Live (s : State) (ses : Session) : Prop := s.session = some ses ∧ ses.phase.isLive = true

/-- How many answers a list of events takes. -/
def callCount (es : List Event) : Nat := es.countP Event.canFail

/-- The result of a request whose events were attempted. -/
def resultOf : Option Event → RequestResult
  | none => .ok
  | some e => .err (errorOfFailing e)

/-- The machine after a request whose register writes left `ses` and whose fixed event list (10_state.md R21) is `es`. -/
def State.attempted (s : State) (ses : Session) (es : List Event) : State :=
  s.finish (ses.record (attempt es s.answers)) (attempt es s.answers).left (resultOf (attempt es s.answers).failing)

/-- Protocol units, each a mode flag and a value (30_encoding.md R73), framed one after the other. -/
def frames (t : Transport) (units : List (Level × Nat)) : List Event := units.flatMap fun u => sendEvents t u.1 u.2

/-- The units that carry a list of data values. -/
def dataUnits (values : List Nat) : List (Level × Nat) := values.map fun v => (true, v)

/-- The events of a wire row alone: its unit framed, with the wait that follows a long command (42_framing.md R190 to R192), or
its lone nibble (30_encoding.md R85). -/
def unitEvents (t : Transport) : Instr → List Event
  | .handshakeNibble3 => nibbleEvents t false 0x3
  | .handshakeNibble2 => nibbleEvents t false 0x2
  | .clearDisplay => sendEvents t false 0x01 ++ [.wait 2000]
  | .returnHome => sendEvents t false 0x02 ++ [.wait 2000]
  | i =>
      match encodeWire i with
      | some u => sendEvents t (u.getLsbD 8) (u.toNat % 256)
      | none => []

/-! ## The fixed list of a construction (41_controller_fsm.md R162, R172) -/

/-- The claims of `initialize` as events (40_transport.md R122, R123). -/
def claimEvents (t : Transport) : List Event := (claims t).map Prod.fst

/-- Steps 1 to 4 (R164 to R167): the settle, `begin`, the handshake with its delays. -/
def handshakeEvents (t : Transport) : List Event :=
  [.wait 50000] ++ beginEvents t ++ nibbleEvents t false 0x3 ++ [.wait 4500] ++ nibbleEvents t false 0x3 ++ [.wait 4500]
    ++ nibbleEvents t false 0x3 ++ [.wait 150] ++ nibbleEvents t false 0x2

/-- What is issued before step 6 writes `display_control`: the claims, steps 1 to 4, and FUNCTION_SET (R168). -/
def eventsBeforeStep6 (cfg : SessionConfig) : List Event :=
  claimEvents cfg.transport ++ handshakeEvents cfg.transport
    ++ frames cfg.transport [(false, 0x20 ||| (initialDisplayFunction cfg.numLines cfg.dotSize).toNat)]

/-- What is issued before step 8 writes `entry_mode`: in addition DISPLAY_CONTROL (R169) and CLEAR_DISPLAY with its wait
(R170). -/
def eventsBeforeStep8 (cfg : SessionConfig) : List Event :=
  eventsBeforeStep6 cfg ++ frames cfg.transport [(false, 0x0C), (false, 0x01)] ++ [.wait 2000]

/-- All of a construction: in addition ENTRY_MODE_SET (R171). -/
def constructionEvents (cfg : SessionConfig) : List Event :=
  eventsBeforeStep8 cfg ++ frames cfg.transport [(false, 0x06)]

/-- Every resource the transport's `initialize` claims, in claim order (40_transport.md R122, R123). -/
def allResources (t : Transport) : List Resource := (claims t).map Prod.snd

/-- How many claims succeed under these answers. -/
def claimsMade (t : Transport) (answers : List Answer) : Nat :=
  match (attempt (claimEvents t) answers).failing with
  | none => (claims t).length
  | some _ => (attempt (claimEvents t) answers).emitted.length - 1

/-- The session a construction leaves, whatever the answers (R162, R173): every field by how far the fixed list got. -/
def constructedSession (cfg : SessionConfig) (answers : List Answer) : Session where
  phase := if (attempt (constructionEvents cfg) answers).failing = none then .ready else .failed
  cfg := cfg
  displayFunction := some (initialDisplayFunction cfg.numLines cfg.dotSize)
  displayControl := if (attempt (eventsBeforeStep6 cfg) answers).failing = none then some 0x04 else none
  entryMode := if (attempt (eventsBeforeStep8 cfg) answers).failing = none then some 0x02 else none
  claimed := (allResources cfg.transport).take (claimsMade cfg.transport answers)
  ioFault := ioFaultAfter false (attempt (constructionEvents cfg) answers).failing
  refused := false
  trace := (attempt (constructionEvents cfg) answers).emitted

/-- The machine a construction leaves: the session there was is now an earlier one (log entry 8). -/
def State.constructed (s : State) (cfg : SessionConfig) : State where
  session := some (constructedSession cfg s.answers)
  earlier := s.earlier ++ s.session.toList
  result := some (resultOf (attempt (constructionEvents cfg) s.answers).failing)
  pending := s.pending
  answers := (attempt (constructionEvents cfg) s.answers).left

/-- The configuration of a GPIO construction with four data pins. -/
def gpioConfig (rs en d4 d5 d6 d7 : Pin) (bl rw : Option Pin) (columns lines dotSize : Nat) : SessionConfig :=
  ⟨.gpio ⟨rs, en, ⟨d4, d5, d6, d7⟩, bl, rw, Config.pwmChannel, Config.pwmRange⟩, columns, lines, dotSize⟩

/-- The configuration of an I2C construction. -/
def i2cConfig (address : BusAddress) (columns lines dotSize : Nat) : SessionConfig :=
  ⟨.i2c address, columns, lines, dotSize⟩

/-- A PWM call, which is no bus traffic. -/
def Event.isPwm : Event → Bool
  | .pwmSetup | .pwmInit _ | .pwmWidth _ _ _ | .pwmClear _ _ | .pwmTeardown => true
  | .pinOut _ | .pin _ _ | .pinRelease _ | .i2cOpen _ | .i2cWrite _ _ | .i2cClose _ | .wait _ => false

/-! ## Time (20_memory.md R56): waits add, and bound the elapsed time from below -/

/-- The microseconds a wait asks for. -/
def Event.waitTime : Event → Nat
  | .wait us => us
  | .pinOut _ | .pin _ _ | .pinRelease _ | .pwmSetup | .pwmInit _ | .pwmWidth _ _ _ | .pwmClear _ _ | .pwmTeardown
  | .i2cOpen _ | .i2cWrite _ _ | .i2cClose _ => 0

/-- The minimum duration of a list of events. -/
def minTime (es : List Event) : Nat := (es.map Event.waitTime).sum

/-! ## What the wires carry

An observer of the lines, not a device: it notes the RS level and the four data lines at every falling edge of Enable, which
is when a nibble unit is committed (00_scope.md R12, 40_transport.md R127). -/

/-- The lines to the display and the units noted so far, oldest first. -/
structure Lines where
  rs : Level
  d4 : Level
  d5 : Level
  d6 : Level
  d7 : Level
  enable : Level
  seen : List (Level × Nibble)
  deriving DecidableEq, Repr

/-- All lines low, nothing noted. -/
def Lines.rest : Lines := ⟨false, false, false, false, false, false, []⟩

/-- The nibble on four lines, the first its bit 0. -/
def nibbleOfLines (b0 b1 b2 b3 : Level) : Nibble :=
  BitVec.ofNat 4 (b0.toNat + 2 * b1.toNat + 4 * b2.toNat + 8 * b3.toNat)

/-- The unit on the lines now. -/
def Lines.unit (l : Lines) : Level × Nibble := (l.rs, nibbleOfLines l.d4 l.d5 l.d6 l.d7)

/-- A new Enable level; a falling edge notes the unit on the lines. -/
def Lines.setEnable (l : Lines) (level : Level) : Lines :=
  { l with enable := level, seen := if l.enable && !level then l.seen ++ [l.unit] else l.seen }

/-- A pin write as the wiring of a GPIO transport carries it (30_encoding.md R72). -/
def Lines.onPin (g : GpioTransport) (l : Lines) (p : Pin) (level : Level) : Lines :=
  if p = g.enablePin then l.setEnable level
  else if p = g.rsPin then { l with rs := level }
  else if p = g.dataPins.d4 then { l with d4 := level }
  else if p = g.dataPins.d5 then { l with d5 := level }
  else if p = g.dataPins.d6 then { l with d6 := level }
  else if p = g.dataPins.d7 then { l with d7 := level }
  else l

/-- An expander byte as the backpack's wiring carries it (30_encoding.md R71). -/
def Lines.onByte (l : Lines) (b : Byte) : Lines :=
  { l with rs := b.getLsbD 0, d4 := b.getLsbD 4, d5 := b.getLsbD 5, d6 := b.getLsbD 6, d7 := b.getLsbD 7 }.setEnable
    (b.getLsbD 2)

/-- The lines after an event. -/
def Lines.after (t : Transport) (l : Lines) (e : Event) : Lines :=
  match t, e with
  | .gpio g, .pin p level => l.onPin g p level
  | .i2c address, .i2cWrite a b => if a = address then l.onByte b else l
  | _, _ => l

/-- The nibble units a list of events puts on the wires, from rest. -/
def unitsSeen (t : Transport) (es : List Event) : List (Level × Nibble) := (es.foldl (Lines.after t) .rest).seen

/-! ## Invariants -/

/-- The pins a GPIO transport uses, in the order of 41_controller_fsm.md R161. -/
def GpioTransport.pins (g : GpioTransport) : List Pin :=
  pinsPresent g.rsPin g.enablePin [g.dataPins.d4, g.dataPins.d5, g.dataPins.d6, g.dataPins.d7] g.backlightPin g.rwPin

/-- A transport that validation admits (R161), with a positive PWM range (00_scope.md R6). -/
def Transport.Legal : Transport → Prop
  | .gpio g => g.pins.Nodup ∧ 0 < g.pwmRange
  | .i2c _ => True

/-- A configuration that validation admits (R161). -/
structure SessionConfig.Legal (cfg : SessionConfig) : Prop where
  transport : cfg.transport.Legal
  columns : 1 ≤ cfg.columns ∧ cfg.columns ≤ 40
  lines : 1 ≤ cfg.numLines ∧ cfg.numLines ≤ 4

/-- What holds of a session between two requests: its configuration is legal; construction is over, one way or the other
(41_controller_fsm.md R160); the reserved bits of the registers are 0 (10_state.md R24 to R26); the registers have values in
Ready (R28); and `claimed` is all, part or none of the transport's resources as the phase says (R32, R41). -/
structure Session.Legal (ses : Session) : Prop where
  cfg : ses.cfg.Legal
  phase : ses.phase = .ready ∨ ses.phase = .failed ∨ ses.phase = .released
  displayFunction : ses.displayFunction = some (initialDisplayFunction ses.cfg.numLines ses.cfg.dotSize)
  displayControl : ∀ dc, ses.displayControl = some dc → dc &&& 0xF8 = 0
  entryMode : ∀ em, ses.entryMode = some em → em &&& 0xFC = 0
  written : ses.phase = .ready → ses.displayControl.isSome ∧ ses.entryMode.isSome
  claimedReady : ses.phase = .ready → ses.claimed = allResources ses.cfg.transport
  claimedFailed : ses.phase = .failed → ses.claimed <+: allResources ses.cfg.transport
  claimedReleased : ses.phase = .released → ses.claimed = []

/-- Every session of the machine, current or earlier, is legal. -/
structure State.Legal (s : State) : Prop where
  current : ∀ ses, s.session = some ses → ses.Legal
  earlier : ∀ ses ∈ s.earlier, ses.Legal

/-- An event that this transport may issue. On I2C every byte has the backlight bit 1 and RW 0 (30_encoding.md R71); on GPIO
only the configured pins are written, and RW only low (40_transport.md R124). -/
def Event.BelongsTo (e : Event) : Transport → Prop
  | .i2c address =>
      match e with
      | .i2cOpen a | .i2cClose a => a = address
      | .i2cWrite a b => a = address ∧ b.getLsbD 3 = true ∧ b.getLsbD 1 = false
      | .wait _ => True
      | .pinOut _ | .pin _ _ | .pinRelease _ | .pwmSetup | .pwmInit _ | .pwmWidth _ _ _ | .pwmClear _ _
      | .pwmTeardown => False
  | .gpio g =>
      match e with
      | .pinOut p | .pinRelease p => p ∈ g.pins ∧ some p ≠ g.backlightPin
      | .pin p level => p ∈ g.pins ∧ some p ≠ g.backlightPin ∧ (some p = g.rwPin → level = false)
      | .pwmInit ch => g.backlightPin.isSome ∧ ch = g.pwmChannel
      | .pwmWidth ch p w => some p = g.backlightPin ∧ ch = g.pwmChannel ∧ w ≤ g.pwmRange
      | .pwmClear ch p => some p = g.backlightPin ∧ ch = g.pwmChannel
      | .pwmSetup | .pwmTeardown => g.backlightPin.isSome
      | .wait _ => True
      | .i2cOpen _ | .i2cWrite _ _ | .i2cClose _ => False

/-- Every event of every session's trace is one its transport may issue. -/
def State.TracesBelong (s : State) : Prop :=
  (∀ ses, s.session = some ses → ∀ e ∈ ses.trace, e.BelongsTo ses.cfg.transport) ∧
    ∀ ses ∈ s.earlier, ∀ e ∈ ses.trace, e.BelongsTo ses.cfg.transport

/-- "each resource is released at most once over the life of the session" (40_transport.md R135): a resource that is still
claimed has not been released, and one that was released is claimed no more. (A PWM channel is left out: the call that
releases it is also that of `disable_backlight`.) -/
structure Session.ReleasedOnce (ses : Session) : Prop where
  pins : ∀ p, ses.trace.count (.pinRelease p) + ses.claimed.count (.pin p) ≤ 1
  pwm : ses.trace.count .pwmTeardown + ses.claimed.count .pwmSub ≤ 1
  bus : ∀ a, ses.trace.count (.i2cClose a) + ses.claimed.count (.bus a) ≤ 1

/-- Every session of the machine releases each resource at most once. -/
structure State.ReleasedOnce (s : State) : Prop where
  current : ∀ ses, s.session = some ses → ses.ReleasedOnce
  earlier : ∀ ses ∈ s.earlier, ses.ReleasedOnce

/-- A run that claims about the display may rest on: no bus failure and no refusal in the session (10_state.md R34, R35). -/
def State.Trusted (s : State) : Prop := ∀ ses, s.session = some ses → ses.ioFault = false ∧ ses.refused = false

end Sys2Proof.Machine
end

