-- ==== Sys2Proof/Certificates/Slice0/Obligations.lean ====
section
/-! DEFINITION. The statements for the provers, each with the rule of the spec it rests on. `State.attempted s ses es` is the
machine after a request whose register writes left `ses` and whose fixed event list is `es`, issued up to the first call that
fails (Safety.lean), so an equation with it is true for every list of answers and fixes every field of the next state. -/

open Sys2Proof Sys2Proof.Machine

/-! ## Reset, step and decoding -/

/-- The machine before any construction (41_controller_fsm.md R160 "(no session)"). That the lists are empty is the model's
choice: log entries 2, 5, 7, 8, 23. -/
def Obligations.ResetHoldsNoSession : Prop :=
  State.reset.session = none ∧ State.reset.earlier = [] ∧ State.reset.result = none ∧ State.reset.pending = [] ∧
    State.reset.answers = []

/-- A step runs the instruction that the next pending unit decodes to, on the machine with that unit taken
(20_memory.md R58); the pending list is the model's own: log entry 2. -/
def Obligations.StepRunsDecodedInstruction : Prop :=
  ∀ (s : State) (u : RawUnit) (rest : List RawUnit) (i : Instr), s.pending = u :: rest → decode u = .ok i →
    step s = exec i { s with pending := rest }

/-- With nothing pending the block is idle (60_exceptions.md R318; log entry 14); a unit that is no instruction stops the
machine by name (log entry 21). -/
def Obligations.StepIdlesOrRejectsByName : Prop :=
  (∀ s : State, s.pending = [] → step s = .next s) ∧
    ∀ (s : State) (u : RawUnit) (rest : List RawUnit) (e : DecodeError), s.pending = u :: rest → decode u = .error e →
      step s = .refused (.malformedUnit e)

/-- Words written out from the encodings of 30_encoding.md R74, R85, R92, R95. -/
def Obligations.SampleWordsDecode : Prop :=
  decode (.wire 0b000000001) = .ok .clearDisplay ∧
    decode (.wire 0b000000111) = .ok (.entryModeSet true true) ∧
    decode (.wire 0b000001101) = .ok (.displayControl true false true) ∧
    decode (.wire 0b000101000) = .ok (.functionSet false true false) ∧
    decode (.wire 0b011000101) = .ok (.setDdramAddr 0x45) ∧
    decode (.wire 0b101001000) = .ok (.dataWrite 0x48) ∧
    decode (.nibble 0b00011) = .ok .handshakeNibble3 ∧
    decode (.request 0b00100 [.nat 1, .nat 5]) = .ok (.setCursor 1 5) ∧
    decode (.request 0b00101 [.list [0x48, 0x69], .nat 2]) = .ok (.writeText [0x48, 0x69] .center) ∧
    decode (.request 0b00001 [.nat 0x27]) = .ok (.constructI2c 0x27 16 1 0) ∧
    decode (.request 0b10111 []) = .ok .reservedRequest17 ∧
    decode (.request 0b11010 []) = .ok (.reservedRequest18 2)

/-- Decoding an encoded instruction gives it back, for every instruction with every operand: no bit and no operand of an
encoding is dropped (30_encoding.md R92, R95; the carriage of operands is the model's: log entry 3). -/
def Obligations.DecodeOfEncode : Prop := ∀ i : Instr, decode (encode i) = .ok i

/-- Every `wire9` word but 0 is one row, and RS = 0 words are selected by their highest set bit (30_encoding.md R74); encoding
what was decoded gives the word with its don't-care bits 0 (R86). -/
def Obligations.WireWordsSelectedByHighestBit : Prop :=
  decode (.wire 0) = .error .noSuchCommand ∧
    (∀ w, 2 ^ 9 ≤ w → decode (.wire w) = .error .wordTooWide) ∧
    ∀ w, 0 < w → w < 2 ^ 9 → ∃ i, decode (.wire w) = .ok i ∧
      (match i with
        | .clearDisplay => Nat.log2 w = 0 ∧ encode i = .wire w
        | .returnHome => Nat.log2 w = 1 ∧ encode i = .wire (w &&& 0x1FE)
        | .entryModeSet _ _ => Nat.log2 w = 2 ∧ encode i = .wire w
        | .displayControl _ _ _ => Nat.log2 w = 3 ∧ encode i = .wire w
        | .cursorShift _ _ => Nat.log2 w = 4 ∧ encode i = .wire (w &&& 0x1FC)
        | .functionSet _ _ _ => Nat.log2 w = 5 ∧ encode i = .wire (w &&& 0x1FC)
        | .setCgramAddr _ => Nat.log2 w = 6 ∧ encode i = .wire w
        | .setDdramAddr _ => Nat.log2 w = 7 ∧ encode i = .wire w
        | .dataWrite _ => Nat.log2 w = 8 ∧ encode i = .wire w
        | _ => False)

/-- The bytes of the wire rows, from their base values and flag values (30_encoding.md R75 to R84). -/
def Obligations.WireRowsHaveTheirBytes : Prop :=
  encode .clearDisplay = .wire 0x01 ∧ encode .returnHome = .wire 0x02 ∧
    (∀ i s : Bool, encode (.entryModeSet i s) = .wire (0x04 + 0x02 * i.toNat + 0x01 * s.toNat)) ∧
    (∀ d c b : Bool, encode (.displayControl d c b) = .wire (0x08 + 0x04 * d.toNat + 0x02 * c.toNat + 0x01 * b.toNat)) ∧
    (∀ m r : Bool, encode (.cursorShift m r) = .wire (0x10 + 0x08 * m.toNat + 0x04 * r.toNat)) ∧
    (∀ dl n f : Bool, encode (.functionSet dl n f) = .wire (0x20 + 0x10 * dl.toNat + 0x08 * n.toNat + 0x04 * f.toNat)) ∧
    (∀ a : BitVec 6, encode (.setCgramAddr a) = .wire (0x40 + a.toNat)) ∧
    (∀ a : BitVec 7, encode (.setDdramAddr a) = .wire (0x80 + a.toNat)) ∧
    ∀ v : Byte, encode (.dataWrite v) = .wire (0x100 + v.toNat)

/-- Every request opcode with its operands in the order of the table, and the defaults of omitted constructor arguments
(30_encoding.md R95, R96, R97; that the operands travel as a typed list is the model's: log entry 3). -/
def Obligations.RequestOpcodesAreRead : Prop :=
  (∀ (rs en : Pin) (pins : List Pin) (bl rw : Option Pin) (columns lines dot : Nat),
    decode (.request 0x00 [.nat rs, .nat en, .list pins, .optPin bl, .optPin rw, .nat columns, .nat lines, .nat dot]) =
        .ok (.constructGpio rs en pins bl rw columns lines dot) ∧
      decode (.request 0x00 [.nat rs, .nat en, .list pins]) = .ok (.constructGpio rs en pins none none 16 1 0)) ∧
    (∀ (a : BusAddress) (columns lines dot : Nat),
      decode (.request 0x01 [.nat a, .nat columns, .nat lines, .nat dot]) = .ok (.constructI2c a columns lines dot) ∧
        decode (.request 0x01 [.nat a]) = .ok (.constructI2c a 16 1 0)) ∧
    (∀ row col : Nat, decode (.request 0x04 [.nat row, .nat col]) = .ok (.setCursor row col)) ∧
    (∀ text : List Nat,
      decode (.request 0x05 [.list text, .nat 0]) = .ok (.writeText text .left) ∧
        decode (.request 0x05 [.list text, .nat 1]) = .ok (.writeText text .right) ∧
        decode (.request 0x05 [.list text, .nat 2]) = .ok (.writeText text .center)) ∧
    (∀ glyph row col : Nat, decode (.request 0x06 [.nat glyph, .nat row, .nat col]) = .ok (.writeRaw glyph row col)) ∧
    (∀ (location : Nat) (bitmap : List Nat),
      decode (.request 0x07 [.nat location, .list bitmap]) = .ok (.createChar location bitmap)) ∧
    (∀ intensity : Int, decode (.request 0x14 [.int intensity]) = .ok (.enableBacklight intensity)) ∧
    ∀ row ∈ [(0x02, Instr.clear), (0x03, .home), (0x08, .display), (0x09, .noDisplay), (0x0A, .cursor), (0x0B, .noCursor),
      (0x0C, .blink), (0x0D, .noBlink), (0x0E, .scrollLeft), (0x0F, .scrollRight), (0x10, .leftToRight),
      (0x11, .rightToLeft), (0x12, .autoscroll), (0x13, .noAutoscroll), (0x15, .disableBacklight), (0x16, .cleanup)],
      decode (.request row.1 []) = .ok row.2

/-- "An omitted constructor argument takes the default shown" (30_encoding.md R97; 44_session.md R280, R281): whichever of the
optional arguments are given by name, in the source's order, each of the others takes its default, and an optional pin is
absent. That a named argument travels as an operand of its own kind is the model's: log entry 3. -/
def Obligations.OmittedArgumentsTakeDefaults : Prop :=
  let named (argument : OptionalArgument) (value : Option Nat) : List Operand := value.toList.map (.keyword argument)
  (∀ (a : BusAddress) (columns lines dot : Option Nat),
    decode (.request 0x01 (.nat a :: (named .columns columns ++ named .lines lines ++ named .dotSize dot))) =
      .ok (.constructI2c a (columns.getD 16) (lines.getD 1) (dot.getD 0))) ∧
    ∀ (rs en : Pin) (pins : List Pin) (bl rw : Option Pin) (columns lines dot : Option Nat),
      decode (.request 0x00 (.nat rs :: .nat en :: .list pins ::
          (named .backlightPin bl ++ named .readWritePin rw ++ named .columns columns ++ named .lines lines
            ++ named .dotSize dot))) =
        .ok (.constructGpio rs en pins bl rw (columns.getD 16) (lines.getD 1) (dot.getD 0))

/-- The reserved request opcodes 0x17..0x1F decode to the reserved rows whatever stands beside them, and no opcode is beyond
5 bits (30_encoding.md R95). -/
def Obligations.ReservedOpcodesDecode : Prop :=
  (∀ ops, decode (.request 0x17 ops) = .ok .reservedRequest17) ∧
    (∀ (k : Nat) (ops : List Operand), k < 8 → decode (.request (0x18 + k) ops) = .ok (.reservedRequest18 (BitVec.ofNat 3 k))) ∧
    ∀ (w : Nat) (ops : List Operand), 32 ≤ w → decode (.request w ops) = .error .wordTooWide

/-! ## Attempting and framing -/

/-- An error ends the request at the failing call: that call is in the trace, nothing after it is, and the answers after it
are not used (60_exceptions.md R304, R306). -/
def Obligations.AttemptEndsWithFailingCall : Prop :=
  ∀ (pre post : List Event) (e : Event) (rest : List Answer), e.canFail = true →
    attempt (pre ++ e :: post) (List.replicate (callCount pre) .ok ++ .fail :: rest) = ⟨pre ++ [e], rest, some e⟩

/-- `Send(rs, value)` on I2C, write by write: high nibble first, each as a byte with Enable 1 and then with Enable 0, the
backlight bit 1 and RW 0 in every byte, and only bits 7:0 of the value (40_transport.md R128, 42_framing.md R190,
30_encoding.md R71, R89). -/
def Obligations.I2cFramingByteByByte : Prop :=
  ∀ (address : BusAddress) (rs : Bool) (value : Nat),
    let byte (n e : Nat) : Event := .i2cWrite address (BitVec.ofNat 8 (16 * n + 8 + 4 * e + rs.toNat))
    sendEvents (.i2c address) rs value =
      [byte (value / 16 % 16) 1, .wait 5, byte (value / 16 % 16) 0, .wait 100,
        byte (value % 16) 1, .wait 5, byte (value % 16) 0, .wait 100]

/-- `Send(rs, value)` on GPIO, pin write by pin write: RS, the four data pins, the enable pulse, for the high and then the
low nibble (40_transport.md R126, R127, 42_framing.md R190, 30_encoding.md R72, R89). -/
def Obligations.GpioFramingPinByPin : Prop :=
  ∀ (g : GpioTransport) (rs : Bool) (value : Nat),
    let nibble (k : Nat) : List Event :=
      [.pin g.rsPin rs, .pin g.dataPins.d4 (value.testBit k), .pin g.dataPins.d5 (value.testBit (k + 1)),
        .pin g.dataPins.d6 (value.testBit (k + 2)), .pin g.dataPins.d7 (value.testBit (k + 3)),
        .pin g.enablePin false, .wait 1, .pin g.enablePin true, .wait 1, .pin g.enablePin false, .wait 100]
    sendEvents (.gpio g) rs value = nibble 4 ++ nibble 0

/-- The same `Send` puts the same two nibble units on the wires of either transport (42_framing.md R194): seen at the falling
edges of Enable, from any state of the lines with Enable low. -/
def Obligations.FramingIndependentOfTransport : Prop :=
  ∀ (t : Transport) (l : Lines) (rs : Bool) (value : Nat), t.Legal → l.enable = false →
    ((sendEvents t rs value).foldl (Lines.after t) l).seen =
        l.seen ++ [(rs, BitVec.ofNat 4 (value / 16)), (rs, BitVec.ofNat 4 value)] ∧
      ((sendEvents t rs value).foldl (Lines.after t) l).enable = false

/-! ## Public operations -/

/-- `clear()` and `home()` (43_operations.md R210, R211): the command, then `Wait(2000)`; no register is written. -/
def Obligations.ClearAndHomeSendThenWait : Prop :=
  ∀ (s : State) (ses : Session), Ready s ses →
    exec .clear s = .next (s.attempted ses (frames ses.cfg.transport [(false, 0x01)] ++ [.wait 2000])) ∧
      exec .home s = .next (s.attempted ses (frames ses.cfg.transport [(false, 0x02)] ++ [.wait 2000]))

/-- `set_cursor(row, col)` (43_operations.md R212): the row clamped to the last line, the row's base plus the column, the
command `0x80 | address`; a column beyond the display is InvalidArgument and changes nothing. -/
def Obligations.SetCursorSendsAddress : Prop :=
  ∀ (s : State) (ses : Session) (row col : Nat), Ready s ses → ses.cfg.numLines ≤ 4 →
    (col < ses.cfg.columns →
      exec (.setCursor row col) s = .next (s.attempted ses (frames ses.cfg.transport
        [(false, 0x80 ||| ([0x00, 0x40, 0x14, 0x54].getD (min row (ses.cfg.numLines - 1)) 0 + col))]))) ∧
      (ses.cfg.columns ≤ col →
        exec (.setCursor row col) s = .next { s with result := some (.err (.invalidArgument (.col col))) })

/-- Every address `set_cursor` can send is at most 0x7B, so bit 7 of the command is always the command's own (10_state.md R38,
30_encoding.md R83). -/
def Obligations.DdramAddressFitsSevenBits : Prop :=
  ∀ (cfg : SessionConfig) (row col : Nat), cfg.Legal → col < cfg.columns →
    ddramAddress cfg.numLines row col ≤ 0x7B ∧
      setCursorValue cfg.numLines row col = 0x80 + ddramAddress cfg.numLines row col

/-- `Justify(s, W, j)` (43_operations.md R213): W codes always; the first W of a long text; a short one padded with spaces on
the right, on the left, or on both sides with the odd space on the right. -/
def Obligations.JustifyLaysOutText : Prop :=
  ∀ (text : List Nat) (w : Nat) (j : Justify),
    (justifyText text w j).length = w ∧
      (w ≤ text.length → justifyText text w j = text.take w) ∧
      (text.length < w →
        justifyText text w .left = text ++ List.replicate (w - text.length) 0x20 ∧
          justifyText text w .right = List.replicate (w - text.length) 0x20 ++ text ∧
          justifyText text w .center =
            List.replicate ((w - text.length) / 2) 0x20 ++ text
              ++ List.replicate (w - text.length - (w - text.length) / 2) 0x20)

/-- `write_text(text, justify)` (43_operations.md R214): the laid-out text, one data write a code, and no command. -/
def Obligations.WriteTextSendsLayout : Prop :=
  ∀ (s : State) (ses : Session) (text : List Nat) (j : Justify), Ready s ses →
    exec (.writeText text j) s = .next (s.attempted ses
      (frames ses.cfg.transport ((justifyText text ses.cfg.columns j).map fun code => (true, code))))

/-- `write_raw(glyph_index, row, col)` (43_operations.md R216): the address command of `set_cursor`, then one data write; the
column is checked before any event. -/
def Obligations.WriteRawSendsAddressThenGlyph : Prop :=
  ∀ (s : State) (ses : Session) (glyph row col : Nat), Ready s ses → ses.cfg.numLines ≤ 4 →
    (col < ses.cfg.columns →
      exec (.writeRaw glyph row col) s = .next (s.attempted ses (frames ses.cfg.transport
        [(false, 0x80 ||| ([0x00, 0x40, 0x14, 0x54].getD (min row (ses.cfg.numLines - 1)) 0 + col)), (true, glyph)]))) ∧
      (ses.cfg.columns ≤ col →
        exec (.writeRaw glyph row col) s = .next { s with result := some (.err (.invalidArgument (.col col))) })

/-- `create_char(location, bitmap)` (43_operations.md R215): the location masked to 3 bits, the slot's address, then the eight
rows, row 0 first and unmasked; a bitmap of another length is InvalidArgument and changes nothing. -/
def Obligations.CreateCharSendsSlotThenRows : Prop :=
  ∀ (s : State) (ses : Session) (location : Nat) (bitmap : List Nat), Ready s ses →
    (bitmap.length = 8 →
      exec (.createChar location bitmap) s = .next (s.attempted ses (frames ses.cfg.transport
        ((false, 0x40 + 8 * (location % 8)) :: bitmap.map fun row => (true, row))))) ∧
      (bitmap.length ≠ 8 →
        exec (.createChar location bitmap) s = .next { s with result := some (.err (.invalidArgument (.bitmap bitmap))) })

/-- The six display-control operations (43_operations.md R220 to R225): the bit is set or cleared in `display_control`, and
the whole register is sent, changed or not (10_state.md R27). -/
def Obligations.DisplayTogglesWriteAndResend : Prop :=
  ∀ (s : State) (ses : Session) (dc : Byte), Ready s ses → ses.displayControl = some dc →
    let updated (i : Instr) (v : Byte) : Prop := exec i s = .next (s.attempted { ses with displayControl := some v }
      (frames ses.cfg.transport [(false, (0x08 ||| v).toNat)]))
    updated .display (dc ||| 0x04) ∧ updated .noDisplay (dc &&& 0xFB) ∧
      updated .cursor (dc ||| 0x02) ∧ updated .noCursor (dc &&& 0xFD) ∧
      updated .blink (dc ||| 0x01) ∧ updated .noBlink (dc &&& 0xFE)

/-- The four entry-mode operations (43_operations.md R228 to R231): as the display-control ones, on `entry_mode`. -/
def Obligations.EntryModeOperationsWriteAndResend : Prop :=
  ∀ (s : State) (ses : Session) (em : Byte), Ready s ses → ses.entryMode = some em →
    let updated (i : Instr) (v : Byte) : Prop := exec i s = .next (s.attempted { ses with entryMode := some v }
      (frames ses.cfg.transport [(false, (0x04 ||| v).toNat)]))
    updated .leftToRight (em ||| 0x02) ∧ updated .rightToLeft (em &&& 0xFD) ∧
      updated .autoscroll (em ||| 0x01) ∧ updated .noAutoscroll (em &&& 0xFE)

/-- `scroll_left()` and `scroll_right()` (43_operations.md R226, R227). -/
def Obligations.ScrollsSendCursorShift : Prop :=
  ∀ (s : State) (ses : Session), Ready s ses →
    exec .scrollLeft s = .next (s.attempted ses (frames ses.cfg.transport [(false, 0x18)])) ∧
      exec .scrollRight s = .next (s.attempted ses (frames ses.cfg.transport [(false, 0x1C)]))

/-- "calling `display()` twice in a row produces two full `DISPLAY_CONTROL` resends with identical register value", and
`no_display()` then `display()` turns the bit on again (20_memory.md R57, 43_operations.md R221). -/
def Obligations.DisplayTwiceResendsTwice : Prop :=
  ∀ (s : State) (ses : Session) (dc : Byte), Ready s ses → ses.displayControl = some dc → NoCallFails s →
    let sent (v : Byte) : List Event := frames ses.cfg.transport [(false, (0x08 ||| v).toNat)]
    (∃ s1 s2, exec .display s = .next s1 ∧ exec .display s1 = .next s2 ∧
      s2.session = some { ses with
        displayControl := some (dc ||| 0x04)
        trace := ses.trace ++ sent (dc ||| 0x04) ++ sent (dc ||| 0x04) }) ∧
      ∃ s1 s2, exec .noDisplay s = .next s1 ∧ exec .display s1 = .next s2 ∧
        s2.session = some { ses with
          displayControl := some (dc ||| 0x04)
          trace := ses.trace ++ sent (dc &&& 0xFB) ++ sent (dc ||| 0x04) }

/-! ## Wire rows alone -/

/-- A wire row alone issues its own events and changes nothing else of the session, whatever the answers. That the rows of the
wire level can be run alone, and when, is the model's choice: log entry 1. -/
def Obligations.WireRowsAreSent : Prop :=
  ∀ (s : State) (ses : Session) (i : Instr), Live s ses → i.isWireUnit = true →
    exec i s = .next (s.attempted ses (unitEvents ses.cfg.transport i))

/-- The handshake nibbles on I2C are the byte pairs 0x3C/0x38 and 0x2C/0x28 (30_encoding.md R85). -/
def Obligations.HandshakeNibblesOnI2c : Prop :=
  ∀ (s : State) (ses : Session) (a : BusAddress), Live s ses → ses.cfg.transport = .i2c a →
    exec .handshakeNibble3 s = .next (s.attempted ses [.i2cWrite a 0x3C, .wait 5, .i2cWrite a 0x38, .wait 100]) ∧
      exec .handshakeNibble2 s = .next (s.attempted ses [.i2cWrite a 0x2C, .wait 5, .i2cWrite a 0x28, .wait 100])

/-! ## Construction -/

/-- `ValidateConfig(cfg)` (41_controller_fsm.md R161): the checks in their order, before any event; a construction that fails
one changes nothing but the result. -/
def Obligations.ConstructionIsValidatedFirst : Prop :=
  ∀ (s : State) (rs en : Pin) (pins : List Pin) (bl rw : Option Pin) (columns lines dot : Nat) (a : BusAddress),
    let gpio := exec (.constructGpio rs en pins bl rw columns lines dot) s
    let i2c := exec (.constructI2c a columns lines dot) s
    let answered (r : RequestResult) : Host.Outcome State Fault Refusal := .next { s with result := some r }
    let distinct := (rs :: en :: pins ++ bl.toList ++ rw.toList).Nodup
    let badColumns := columns < 1 ∨ columns > 40
    let badLines := lines < 1 ∨ lines > 4
    (pins.length = 8 → gpio = answered (.refused .eightBitBus)) ∧
      (pins.length ≠ 8 → pins.length ≠ 4 → gpio = answered (.err (.invalidArgument (.dataPins pins)))) ∧
      (pins.length = 4 → ¬ distinct → gpio = answered (.refused .duplicatePins)) ∧
      (pins.length = 4 → distinct → badColumns → gpio = answered (.err (.invalidArgument (.columns columns)))) ∧
      (pins.length = 4 → distinct → ¬ badColumns → badLines → gpio = answered (.err (.invalidArgument (.lines lines)))) ∧
      (badColumns → i2c = answered (.err (.invalidArgument (.columns columns)))) ∧
      (¬ badColumns → badLines → i2c = answered (.err (.invalidArgument (.lines lines))))

/-- The construction sequence (41_controller_fsm.md R162 to R173), whatever the answers: a valid construction issues its fixed
list up to the first failing call, and leaves every field of a new session by how far it got. That the session there was
before becomes an earlier one is the model's choice: log entry 8. -/
def Obligations.ConstructionFollowsFixedList : Prop :=
  ∀ (s : State) (columns lines dot : Nat), 1 ≤ columns → columns ≤ 40 → 1 ≤ lines → lines ≤ 4 →
    (∀ a : BusAddress, exec (.constructI2c a columns lines dot) s = .next (s.constructed (i2cConfig a columns lines dot))) ∧
      ∀ (rs en d4 d5 d6 d7 : Pin) (bl rw : Option Pin),
        (rs :: en :: [d4, d5, d6, d7] ++ bl.toList ++ rw.toList).Nodup →
        exec (.constructGpio rs en [d4, d5, d6, d7] bl rw columns lines dot) s =
          .next (s.constructed (gpioConfig rs en d4 d5 d6 d7 bl rw columns lines dot))

/-- An I2C construction in which no call fails, byte by byte (41_controller_fsm.md R172, 10_state.md R41). -/
def Obligations.I2cConstructionByteByByte : Prop :=
  ∀ (s : State) (a : BusAddress) (columns lines dot : Nat), 1 ≤ columns → columns ≤ 40 → 1 ≤ lines → lines ≤ 4 →
    NoCallFails s →
    let df : Byte := if 1 < lines then 0x08 else if dot = 0 then 0x00 else 0x04
    let pulse (b : Byte) : List Event := [.i2cWrite a (b ||| 0x04), .wait 5, .i2cWrite a b, .wait 100]
    ∃ t, exec (.constructI2c a columns lines dot) s = .next t ∧ t.result = some .ok ∧
      t.session = some
        { phase := .ready
          cfg := ⟨.i2c a, columns, lines, dot⟩
          displayFunction := some df
          displayControl := some 0x04
          entryMode := some 0x02
          claimed := [.bus a]
          ioFault := false
          refused := false
          trace := [.i2cOpen a, .wait 50000] ++ pulse 0x38 ++ [.wait 4500] ++ pulse 0x38 ++ [.wait 4500] ++ pulse 0x38
            ++ [.wait 150] ++ pulse 0x28
            ++ pulse 0x28 ++ pulse ((df <<< 4) ||| 0x08)
            ++ pulse 0x08 ++ pulse 0xC8
            ++ pulse 0x08 ++ pulse 0x18 ++ [.wait 2000]
            ++ pulse 0x08 ++ pulse 0x68 }

/-- A GPIO construction in which no call fails (40_transport.md R122, R124; 41_controller_fsm.md R162 to R171; 10_state.md
R41): the claims in order, the settle, `begin`, then the sequence. -/
def Obligations.GpioConstructionInOrder : Prop :=
  ∀ (s : State) (rs en d4 d5 d6 d7 : Pin) (bl rw : Option Pin) (columns lines dot : Nat),
    1 ≤ columns → columns ≤ 40 → 1 ≤ lines → lines ≤ 4 →
    (rs :: en :: [d4, d5, d6, d7] ++ bl.toList ++ rw.toList).Nodup → NoCallFails s →
    let cfg := gpioConfig rs en d4 d5 d6 d7 bl rw columns lines dot
    let df : Byte := if 1 < lines then 0x08 else if dot = 0 then 0x00 else 0x04
    let claimed : List Pin := [rs, en] ++ rw.toList ++ [d4, d5, d6, d7]
    let n3 := nibbleEvents cfg.transport false 0x3
    ∃ t, exec (.constructGpio rs en [d4, d5, d6, d7] bl rw columns lines dot) s = .next t ∧ t.result = some .ok ∧
      t.session = some
        { phase := .ready
          cfg := cfg
          displayFunction := some df
          displayControl := some 0x04
          entryMode := some 0x02
          claimed := claimed.map .pin ++ (if bl.isSome then [.pwmSub, .pwmChan Config.pwmChannel] else [])
          ioFault := false
          refused := false
          trace := claimed.map .pinOut ++ (if bl.isSome then [.pwmSetup, .pwmInit Config.pwmChannel] else [])
            ++ [.wait 50000, .pin rs false, .pin en false] ++ rw.toList.map (fun p => .pin p false)
            ++ n3 ++ [.wait 4500] ++ n3 ++ [.wait 4500] ++ n3 ++ [.wait 150] ++ nibbleEvents cfg.transport false 0x2
            ++ frames cfg.transport [(false, 0x20 + df.toNat), (false, 0x0C), (false, 0x01)] ++ [.wait 2000]
            ++ frames cfg.transport [(false, 0x06)] }

/-- A claim that fails (60_exceptions.md R303, 41_controller_fsm.md R173, 40_transport.md R122): the construction ends there in
phase Failed with ResourceUnavailable; the resources claimed before it stay claimed, `io_fault` is not set, and no register but
`display_function` holds a value. -/
def Obligations.FailedClaimKeepsEarlierClaims : Prop :=
  ∀ (s : State) (rs en d4 d5 d6 d7 : Pin) (bl rw : Option Pin) (columns lines dot k : Nat) (rest : List Answer),
    1 ≤ columns → columns ≤ 40 → 1 ≤ lines → lines ≤ 4 →
    (rs :: en :: [d4, d5, d6, d7] ++ bl.toList ++ rw.toList).Nodup →
    let pins : List Pin := [rs, en] ++ rw.toList ++ [d4, d5, d6, d7]
    ∀ hk : k < pins.length, s.answers = List.replicate k .ok ++ .fail :: rest →
    ∃ t ses, exec (.constructGpio rs en [d4, d5, d6, d7] bl rw columns lines dot) s = .next t ∧ t.session = some ses ∧
      t.result = some (.err (.resourceUnavailable (.pinOut pins[k]))) ∧ t.answers = rest ∧
      ses.phase = .failed ∧ ses.claimed = (pins.take k).map .pin ∧ ses.trace = (pins.take (k + 1)).map .pinOut ∧
      ses.ioFault = false ∧ ses.displayFunction.isSome = true ∧ ses.displayControl = none ∧ ses.entryMode = none

/-- The initial `display_function` by line count and dot size (41_controller_fsm.md R163). -/
def Obligations.DisplayFunctionByLinesAndDots : Prop :=
  ∀ dot : Nat, initialDisplayFunction 1 0 = 0x00 ∧ (dot ≠ 0 → initialDisplayFunction 1 dot = 0x04) ∧
    ∀ lines, 1 < lines → initialDisplayFunction lines dot = 0x08

/-- After a construction that returns Ok, the wires have carried exactly the twelve nibble units of 41_controller_fsm.md R172,
in order, on either transport, seen from lines at rest (Enable low). -/
def Obligations.InitializationUnitsOnTheWires : Prop :=
  ∀ (s t : State) (ses : Session) (i : Instr), i.isConstruct = true → exec i s = .next t → t.result = some .ok →
    t.session = some ses → ∃ df, ses.displayFunction = some df ∧
      unitsSeen ses.cfg.transport ses.trace =
        ([0x3, 0x3, 0x3, 0x2, 0x2, BitVec.ofNat 4 df.toNat, 0x0, 0xC, 0x0, 0x1, 0x0, 0x6].map fun n => (false, n))

/-- The waits of a construction that returns Ok (41_controller_fsm.md R172): 62,410 microseconds on I2C, 62,374 on GPIO. -/
def Obligations.InitializationTakesItsMinimumTime : Prop :=
  ∀ (s t : State) (ses : Session) (i : Instr), i.isConstruct = true → exec i s = .next t → t.result = some .ok →
    t.session = some ses → minTime ses.trace = match ses.cfg.transport with
      | .i2c _ => 62410
      | .gpio _ => 62374

/-! ## Backlight and cleanup -/

/-- The backlight requests on GPIO (40_transport.md R130 to R132): with a backlight pin, one PWM call, whose pulse width is
`floor(clamp(i, 0, 100) * PWM_RANGE / 100)` or which clears the channel; without one, no event and nothing written. -/
def Obligations.BacklightDrivesPwm : Prop :=
  ∀ (s : State) (ses : Session) (g : GpioTransport) (intensity : Int), Ready s ses → ses.cfg.transport = .gpio g →
    (∀ bl, g.backlightPin = some bl →
      exec (.enableBacklight intensity) s = .next (s.attempted ses
          [.pwmWidth g.pwmChannel bl ((max 0 (min intensity 100)).toNat * g.pwmRange / 100)]) ∧
        exec .disableBacklight s = .next (s.attempted ses [.pwmClear g.pwmChannel bl])) ∧
      (g.backlightPin = none →
        exec (.enableBacklight intensity) s = .next { s with result := some .ok } ∧
          exec .disableBacklight s = .next { s with result := some .ok })

/-- The backlight requests on I2C, and on GPIO without a backlight pin, emit nothing, write nothing and cannot fail
(40_transport.md R130, R132, R133). -/
def Obligations.BacklightElsewhereDoesNothing : Prop :=
  ∀ (s : State) (ses : Session) (intensity : Int), Ready s ses →
    ((∃ a, ses.cfg.transport = .i2c a) ∨ ∃ g, ses.cfg.transport = .gpio g ∧ g.backlightPin = none) →
    exec (.enableBacklight intensity) s = .next { s with result := some .ok } ∧
      exec .disableBacklight s = .next { s with result := some .ok }

/-- `cleanup()` (44_session.md R283, 40_transport.md R134): in Ready and Failed every claimed resource gets its release call,
last claimed first, whatever fails; `claimed` is emptied, the phase is Released, and the first failing call, if any, is the
error; in Released it does nothing and returns normally. -/
def Obligations.CleanupReleasesInReverse : Prop :=
  ∀ (s : State) (ses : Session), s.session = some ses →
    let calls : List Event := ses.claimed.reverse.map (releaseEvent ses.cfg.transport)
    (ses.phase = .ready ∨ ses.phase = .failed →
      exec .cleanup s = .next
        { s with
          session := some { ses with
            phase := .released
            claimed := []
            trace := ses.trace ++ calls
            ioFault := ioFaultAfter ses.ioFault (attempt calls s.answers).failing }
          answers := s.answers.drop calls.length
          result := some (resultOf (attempt calls s.answers).failing) }) ∧
      (ses.phase = .released → exec .cleanup s = .next { s with result := some .ok })

/-- A release call that fails (40_transport.md R134): the rest are still attempted, the first failing call is reported as
IOFailure, and `io_fault` is set (60_exceptions.md R302). -/
def Obligations.CleanupReportsFirstFailure : Prop :=
  ∀ (s : State) (ses : Session) (k : Nat) (rest : List Answer), s.session = some ses →
    ses.phase = .ready ∨ ses.phase = .failed →
    let calls : List Event := ses.claimed.reverse.map (releaseEvent ses.cfg.transport)
    ∀ hk : k < calls.length, s.answers = List.replicate k .ok ++ .fail :: rest →
    ∃ t ses', exec .cleanup s = .next t ∧ t.session = some ses' ∧ t.result = some (.err (.ioFailure calls[k])) ∧
      ses'.trace = ses.trace ++ calls ∧ ses'.claimed = [] ∧ ses'.phase = .released ∧ ses'.ioFault = true

/-- The call that releases each resource in a session with a GPIO backlight pin `bl`, and on I2C (40_transport.md R134). -/
def Obligations.ReleaseCallsByResource : Prop :=
  ∀ (t : Transport) (p : Pin) (ch : PwmChannel) (a : BusAddress),
    releaseEvent t (.pin p) = .pinRelease p ∧ releaseEvent t .pwmSub = .pwmTeardown ∧
      releaseEvent t (.bus a) = .i2cClose a ∧
      ∀ g bl, t = .gpio g → g.backlightPin = some bl → releaseEvent t (.pwmChan ch) = .pwmClear ch bl

/-! ## Refusals and faults -/

/-- A public operation or backlight request outside Ready is refused with NotReady, before its arguments are looked at: no
event, and no change but `refused <- 1` and the result (60_exceptions.md R305, R310, R311; 43_operations.md R218). The phases
before Ready, and no session at all, are the model's reading: log entries 7 and 15. -/
def Obligations.OperationsOutsideReadyAreRefused : Prop :=
  ∀ (s : State) (i : Instr), i.needsReady = true →
    (∀ ses, s.session = some ses → ses.phase ≠ .ready →
      exec i s = .next { s with session := some { ses with refused := true }, result := some (.refused .notReady) }) ∧
      (s.session = none → exec i s = .next { s with result := some (.refused .notReady) })

/-- `cleanup()` and wire rows where they are not admitted are refused too (41_controller_fsm.md R160). The reading for
`cleanup()` is DEDUCED (log entries 7, 15), and for wire rows a DESIGN CHOICE (log entry 1). -/
def Obligations.CleanupAndWireRowsElsewhereAreRefused : Prop :=
  ∀ (s : State),
    (∀ ses, s.session = some ses →
      (ses.phase = .uninitialized ∨ ses.phase = .handshakeIn4BitMode →
        exec .cleanup s =
          .next { s with session := some { ses with refused := true }, result := some (.refused .notReady) }) ∧
        (ses.phase.isLive = false → ∀ i : Instr, i.isWireUnit = true →
          exec i s = .next { s with session := some { ses with refused := true }, result := some (.refused .notReady) })) ∧
      (s.session = none → ∀ i : Instr, i = .cleanup ∨ i.isWireUnit = true →
        exec i s = .next { s with result := some (.refused .notReady) })

/-- A reserved request opcode is refused with ReservedOpcode in every phase (60_exceptions.md R305, R310, R311). -/
def Obligations.ReservedOpcodesAreRefused : Prop :=
  ∀ (s : State) (low : BitVec 3),
    let refused : State := { s with
      session := s.session.map fun ses => { ses with refused := true }
      result := some (.refused .reservedOpcode) }
    exec .reservedRequest17 s = .next refused ∧ exec (.reservedRequest18 low) s = .next refused

/-- "A model that reads an unwritten register must fault, not supply 0" (10_state.md R28): the request is refused with
UnwrittenRegister, emits no event and changes nothing but `refused <- 1` and the result (60_exceptions.md R310, R311). That the
fault of R28 is this refusal is DEDUCED: log entry 9. -/
def Obligations.UnwrittenRegisterIsRefused : Prop :=
  ∀ (s : State) (ses : Session), Ready s ses →
    let refused : State :=
      { s with session := some { ses with refused := true }, result := some (.refused .unwrittenRegister) }
    (ses.displayControl = none → ∀ i ∈ [Instr.display, .noDisplay, .cursor, .noCursor, .blink, .noBlink],
      exec i s = .next refused) ∧
      (ses.entryMode = none → ∀ i ∈ [Instr.leftToRight, .rightToLeft, .autoscroll, .noAutoscroll], exec i s = .next refused)

/-! ## The whole machine -/

/-- Every request returns a result (60_exceptions.md R300): in every state every instruction reaches a next state with a result,
so none faults and the model refuses none. On a legal machine the result is never UnwrittenRegister: "no rule of this spec
performs one" (R311, 10_state.md R28). -/
def Obligations.EveryRequestIsAnswered : Prop :=
  ∀ (s : State) (i : Instr), ∃ t r, exec i s = .next t ∧ t.result = some r ∧
    (s.Legal → r ≠ .refused .unwrittenRegister)

/-- No request but a constructor writes the configuration or `display_function`, undoes a part of the trace, or touches the
earlier sessions or what is pending (10_state.md R23, R24, R33; 20_memory.md R57, R58). -/
def Obligations.RequestsOnlyAppendToTrace : Prop :=
  ∀ (s t : State) (i : Instr) (ses : Session), i.isConstruct = false → s.session = some ses → exec i s = .next t →
    t.earlier = s.earlier ∧ t.pending = s.pending ∧ t.answers <:+ s.answers ∧
      ∃ ses', t.session = some ses' ∧ ses'.cfg = ses.cfg ∧ ses'.displayFunction = ses.displayFunction ∧
        ses.trace <+: ses'.trace

/-- The frame of the registers and of `claimed`: `display_control` changes only by its six operations, `entry_mode` only by
its four, `claimed` only by `cleanup()` (10_state.md R25, R26, R32). -/
def Obligations.OnlyTheirOperationsWriteRegisters : Prop :=
  ∀ (s t : State) (i : Instr) (ses ses' : Session), i.isConstruct = false → s.session = some ses → exec i s = .next t →
    t.session = some ses' →
    (i ∉ [Instr.display, .noDisplay, .cursor, .noCursor, .blink, .noBlink] →
      ses'.displayControl = ses.displayControl) ∧
      (i ∉ [Instr.leftToRight, .rightToLeft, .autoscroll, .noAutoscroll] → ses'.entryMode = ses.entryMode) ∧
      (i ≠ .cleanup → ses'.claimed = ses.claimed)

/-- The transitions of 41_controller_fsm.md R160 between requests: only `cleanup()` changes a phase, and only Ready and Failed
to Released. -/
def Obligations.OnlyCleanupChangesThePhase : Prop :=
  ∀ (s t : State) (i : Instr) (ses ses' : Session), i.isConstruct = false → s.session = some ses → exec i s = .next t →
    t.session = some ses' → ses'.phase = ses.phase ∨
      (i = .cleanup ∧ (ses.phase = .ready ∨ ses.phase = .failed) ∧ ses'.phase = .released)

/-- `io_fault` and `refused` are sticky; `io_fault` is set exactly by a request that returns IOFailure, `refused` exactly by
one that is refused (10_state.md R34, R35). -/
def Obligations.StatusBitsAreSticky : Prop :=
  ∀ (s t : State) (i : Instr) (ses ses' : Session), i.isConstruct = false → s.session = some ses → exec i s = .next t →
    t.session = some ses' →
    (ses'.ioFault = true ↔ ses.ioFault = true ∨ ∃ e, t.result = some (.err (.ioFailure e))) ∧
      (ses'.refused = true ↔ ses.refused = true ∨ ∃ r, t.result = some (.refused r))

/-- InvalidArgument is "rejected before any bus traffic, never partially applied" (43_operations.md R219): the result is all
that changes. -/
def Obligations.InvalidArgumentChangesNothing : Prop :=
  ∀ (s t : State) (i : Instr) (b : BadArgument), exec i s = .next t → t.result = some (.err (.invalidArgument b)) →
    t = { s with result := some (.err (.invalidArgument b)) }

/-- An IOFailure of an operation in Ready (60_exceptions.md R302, R306, R307): the failing call is the last event of the trace
and the first answered `fail`, `io_fault` is set, the session stays Ready, and no claim reports it. -/
def Obligations.IoFailureEndsTheRequest : Prop :=
  ∀ (s t : State) (i : Instr) (ses : Session) (e : Event), i.needsReady = true → Ready s ses → exec i s = .next t →
    t.result = some (.err (.ioFailure e)) →
    e.isClaim = false ∧ ∃ ses' pre, t.session = some ses' ∧ ses'.trace = ses.trace ++ pre ++ [e] ∧ ses'.ioFault = true ∧
      ses'.phase = .ready ∧ s.answers[callCount pre]? = some .fail ∧ (∀ k < callCount pre, s.answers[k]? ≠ some .fail) ∧
      t.answers = s.answers.drop (callCount pre + 1)

/-- The two transports give the same result and put the same nibble units on the wires for every operation, when the
configuration and the registers are the same and no call fails (42_framing.md R194, 40_transport.md R120). The units are those
seen from lines at rest (Enable low). -/
def Obligations.OperationsIndependentOfTransport : Prop :=
  ∀ (s1 s2 : State) (ses1 ses2 : Session) (i : Instr), i.needsReady = true → Ready s1 ses1 → Ready s2 ses2 →
    ses1.Legal → ses2.Legal → NoCallFails s1 → NoCallFails s2 →
    ses1.cfg.columns = ses2.cfg.columns → ses1.cfg.numLines = ses2.cfg.numLines →
    ses1.displayControl = ses2.displayControl → ses1.entryMode = ses2.entryMode →
    ∃ t1 t2 es1 es2, exec i s1 = .next t1 ∧ exec i s2 = .next t2 ∧ t1.result = t2.result ∧
      t1.session.map Session.trace = some (ses1.trace ++ es1) ∧ t2.session.map Session.trace = some (ses2.trace ++ es2) ∧
      unitsSeen ses1.cfg.transport es1 = unitsSeen ses2.cfg.transport es2

/-- Every operation that succeeds is a sequence of wire rows the block may send, each as it is sent alone (10_state.md R21,
30_encoding.md R74, R86): never `CURSOR_MOVE`, never DL = 1, never a CGRAM address off a slot base, never a DDRAM address above
0x7B. PWM calls are no wire traffic. That a wire row is an instruction of its own is the model's choice: log entry 1. -/
def Obligations.OperationsAreWellFormedWireRows : Prop :=
  ∀ (s t : State) (ses : Session) (i : Instr), i.needsReady = true → Ready s ses → ses.Legal → NoCallFails s →
    exec i s = .next t → ∃ (es : List Event) (units : List Instr), t.session.map Session.trace = some (ses.trace ++ es) ∧
      (∀ u ∈ units, u.isWireUnit = true ∧ u.wellFormed = true) ∧
      es.filter (fun e => !e.isPwm) = units.flatMap (unitEvents ses.cfg.transport)

/-- The minimum durations of 70_reset_and_hazards.md R360, for requests in which no call fails. -/
def Obligations.OperationsTakeTheirMinimumTime : Prop :=
  ∀ (s t : State) (ses : Session) (i : Instr), i.needsReady = true → Ready s ses → ses.Legal → NoCallFails s →
    exec i s = .next t → t.result = some .ok →
    ∃ es, t.session.map Session.trace = some (ses.trace ++ es) ∧
      minTime es = (match ses.cfg.transport with
        | .i2c _ => 210
        | .gpio _ => 204) * (match i with
          | .writeText _ _ => ses.cfg.columns
          | .writeRaw _ _ _ => 2
          | .createChar _ _ => 9
          | .enableBacklight _ | .disableBacklight => 0
          | _ => 1) + (match i with
          | .clear | .home => 2000
          | _ => 0)

/-- Every session stays legal over every step (10_state.md R22 to R28, R32; 41_controller_fsm.md R160): its configuration,
phase, register bits and claimed resources. -/
def Obligations.SessionsStayLegal : Prop := ∀ s t : State, s.Legal → step s = .next t → t.Legal

/-- Over every step, each event of each trace stays one its transport may issue: on I2C every byte has the backlight bit 1 and
RW 0, on GPIO only the session's own pins are driven and RW only low (30_encoding.md R71, 40_transport.md R124, R133). -/
def Obligations.TracesStayWithinTheirTransport : Prop :=
  ∀ s t : State, s.Legal → s.TracesBelong → step s = .next t → t.TracesBelong

/-- Over every step, no resource but a PWM channel is released twice, nor while it is still claimed (40_transport.md R135). A PWM
channel's release call is also that of `disable_backlight`, so the trace does not tell its release. -/
def Obligations.ResourcesAreReleasedOnce : Prop :=
  ∀ s t : State, s.Legal → s.ReleasedOnce → step s = .next t → t.ReleasedOnce

/-- The machine before any construction meets the three invariants. -/
def Obligations.ResetMeetsTheInvariants : Prop :=
  State.reset.Legal ∧ State.reset.TracesBelong ∧ State.reset.ReleasedOnce
end

