-- ==== Sys2Proof/Laws/State.lean ====
section
/-! SUPPORT. One lemma per field per update of the state, the session and the sequencer, each true by `rfl`. -/

namespace Sys2Proof.Machine

/-! ## The machine -/

@[simp] theorem State.finish_session (s : State) (ses as r) : (s.finish ses as r).session = some ses := rfl
@[simp] theorem State.finish_earlier (s : State) (ses as r) : (s.finish ses as r).earlier = s.earlier := rfl
@[simp] theorem State.finish_result (s : State) (ses as r) : (s.finish ses as r).result = some r := rfl
@[simp] theorem State.finish_pending (s : State) (ses as r) : (s.finish ses as r).pending = s.pending := rfl
@[simp] theorem State.finish_answers (s : State) (ses as r) : (s.finish ses as r).answers = as := rfl

@[simp] theorem State.refuse_session (s : State) (r) :
    (s.refuse r).session = s.session.map fun ses => { ses with refused := true } := rfl
@[simp] theorem State.refuse_earlier (s : State) (r) : (s.refuse r).earlier = s.earlier := rfl
@[simp] theorem State.refuse_result (s : State) (r) : (s.refuse r).result = some (.refused r) := rfl
@[simp] theorem State.refuse_pending (s : State) (r) : (s.refuse r).pending = s.pending := rfl
@[simp] theorem State.refuse_answers (s : State) (r) : (s.refuse r).answers = s.answers := rfl

@[simp] theorem State.refuseConstruction_session (s : State) (r) : (s.refuseConstruction r).session = s.session := rfl
@[simp] theorem State.refuseConstruction_earlier (s : State) (r) : (s.refuseConstruction r).earlier = s.earlier := rfl
@[simp] theorem State.refuseConstruction_result (s : State) (r) :
    (s.refuseConstruction r).result = some (.refused r) := rfl
@[simp] theorem State.refuseConstruction_pending (s : State) (r) : (s.refuseConstruction r).pending = s.pending := rfl
@[simp] theorem State.refuseConstruction_answers (s : State) (r) : (s.refuseConstruction r).answers = s.answers := rfl

@[simp] theorem State.rejectConstruction_session (s : State) (b) : (s.rejectConstruction b).session = s.session := rfl
@[simp] theorem State.rejectConstruction_earlier (s : State) (b) : (s.rejectConstruction b).earlier = s.earlier := rfl
@[simp] theorem State.rejectConstruction_result (s : State) (b) :
    (s.rejectConstruction b).result = some (.err (.invalidArgument b)) := rfl
@[simp] theorem State.rejectConstruction_pending (s : State) (b) : (s.rejectConstruction b).pending = s.pending := rfl
@[simp] theorem State.rejectConstruction_answers (s : State) (b) : (s.rejectConstruction b).answers = s.answers := rfl

@[simp] theorem State.retireSession_session (s : State) : s.retireSession.session = none := rfl
@[simp] theorem State.retireSession_earlier (s : State) :
    s.retireSession.earlier = s.earlier ++ s.session.toList := rfl
@[simp] theorem State.retireSession_result (s : State) : s.retireSession.result = s.result := rfl
@[simp] theorem State.retireSession_pending (s : State) : s.retireSession.pending = s.pending := rfl
@[simp] theorem State.retireSession_answers (s : State) : s.retireSession.answers = s.answers := rfl

@[simp] theorem State.withUnit_session (s : State) (u) : (s.withUnit u).session = s.session := rfl
@[simp] theorem State.withUnit_earlier (s : State) (u) : (s.withUnit u).earlier = s.earlier := rfl
@[simp] theorem State.withUnit_result (s : State) (u) : (s.withUnit u).result = s.result := rfl
@[simp] theorem State.withUnit_pending (s : State) (u) : (s.withUnit u).pending = u :: s.pending := rfl
@[simp] theorem State.withUnit_answers (s : State) (u) : (s.withUnit u).answers = s.answers := rfl

/-! ## The session -/

@[simp] theorem Session.record_phase (ses : Session) (a) : (ses.record a).phase = ses.phase := rfl
@[simp] theorem Session.record_cfg (ses : Session) (a) : (ses.record a).cfg = ses.cfg := rfl
@[simp] theorem Session.record_displayFunction (ses : Session) (a) :
    (ses.record a).displayFunction = ses.displayFunction := rfl
@[simp] theorem Session.record_displayControl (ses : Session) (a) :
    (ses.record a).displayControl = ses.displayControl := rfl
@[simp] theorem Session.record_entryMode (ses : Session) (a) : (ses.record a).entryMode = ses.entryMode := rfl
@[simp] theorem Session.record_claimed (ses : Session) (a) : (ses.record a).claimed = ses.claimed := rfl
@[simp] theorem Session.record_refused (ses : Session) (a) : (ses.record a).refused = ses.refused := rfl
@[simp] theorem Session.record_ioFault (ses : Session) (a) :
    (ses.record a).ioFault = ioFaultAfter ses.ioFault a.failing := rfl
@[simp] theorem Session.record_trace (ses : Session) (a) : (ses.record a).trace = ses.trace ++ a.emitted := rfl

/-! ## The sequencer -/

@[simp] theorem Sequencer.start_ses (ses as) : (Sequencer.start ses as).ses = ses := rfl
@[simp] theorem Sequencer.start_answers (ses as) : (Sequencer.start ses as).answers = as := rfl
@[simp] theorem Sequencer.start_stop (ses as) : (Sequencer.start ses as).stop = none := rfl

@[simp] theorem Sequencer.settle_ses (q : Sequencer) (a) : (q.settle a).ses = q.ses.record a := rfl
@[simp] theorem Sequencer.settle_answers (q : Sequencer) (a) : (q.settle a).answers = a.left := rfl
@[simp] theorem Sequencer.settle_stop (q : Sequencer) (a) :
    (q.settle a).stop = a.failing.map fun e => .error (errorOfFailing e) := rfl

@[simp] theorem Attempt.after_emitted (e) (a : Attempt) : (a.after e).emitted = e :: a.emitted := rfl
@[simp] theorem Attempt.after_left (e) (a : Attempt) : (a.after e).left = a.left := rfl
@[simp] theorem Attempt.after_failing (e) (a : Attempt) : (a.after e).failing = a.failing := rfl

end Sys2Proof.Machine
end

