-- ==== Sys2Proof/Laws/Attempt.lean ====
section
/-! SUPPORT. What attempting a list of events can do, said once. -/

namespace Sys2Proof.Machine

@[simp] theorem attempt_nil (as : List Answer) : attempt [] as = ⟨[], as, none⟩ := by simp [attempt]

/-- A wait takes no answer and cannot fail. -/
theorem attempt_cons_wait {e : Event} (he : e.canFail = false) (es as) :
    attempt (e :: es) as = (attempt es as).after e := by simp [attempt, he]

/-- A call that fails ends the attempt. -/
theorem attempt_cons_fail {e : Event} (he : e.canFail = true) (es as) :
    attempt (e :: es) (.fail :: as) = ⟨[e], as, some e⟩ := by simp [attempt, he]

/-- A call that is answered `ok`, or has no listed answer, is followed by the rest. -/
theorem attempt_cons_ok {e : Event} (he : e.canFail = true) (es) {as : List Answer} (h : as.head? ≠ some .fail) :
    attempt (e :: es) as = (attempt es as.tail).after e := by
  match as with
  | [] => simp [attempt, he]
  | .ok :: as => simp [attempt, he]
  | .fail :: as => simp at h

/-- The three ways an attempt of a non-empty list begins. -/
theorem attempt_cons (e : Event) (es : List Event) (as : List Answer) :
    (e.canFail = false ∧ attempt (e :: es) as = (attempt es as).after e) ∨
      (e.canFail = true ∧ as.head? ≠ some .fail ∧ attempt (e :: es) as = (attempt es as.tail).after e) ∨
      (e.canFail = true ∧ as.head? = some .fail ∧ attempt (e :: es) as = ⟨[e], as.tail, some e⟩) := by
  cases he : e.canFail
  · exact .inl ⟨rfl, attempt_cons_wait he es as⟩
  · by_cases h : as.head? = some .fail
    · obtain ⟨left, rfl⟩ : ∃ left, as = .fail :: left := by
        cases as <;> simp_all
      exact .inr (.inr ⟨rfl, h, attempt_cons_fail he es left⟩)
    · exact .inr (.inl ⟨rfl, h, attempt_cons_ok he es h⟩)

/-- Attempting one list after another: the second is attempted only if nothing in the first failed. -/
theorem attempt_append (es fs : List Event) (as : List Answer) :
    attempt (es ++ fs) as =
      match (attempt es as).failing with
      | some _ => attempt es as
      | none => { attempt fs (attempt es as).left with
                  emitted := es ++ (attempt fs (attempt es as).left).emitted } := by
  induction es generalizing as with
  | nil => simp
  | cons e es ih =>
    rw [List.cons_append]
    rcases attempt_cons e (es ++ fs) as with ⟨he, h⟩ | ⟨he, ha, h⟩ | ⟨he, ha, h⟩
    · rw [h, ih, attempt_cons_wait he]
      cases hf : (attempt es as).failing <;> simp [Attempt.after, hf]
    · rw [h, ih, attempt_cons_ok he es ha]
      cases hf : (attempt es as.tail).failing <;> simp [Attempt.after, hf]
    · obtain ⟨left, rfl⟩ : ∃ left, as = .fail :: left := by cases as <;> simp_all
      simp [attempt_cons_fail he]

/-- Either every event is issued and nothing failed, or the events end with the first call that failed. -/
theorem attempt_cases (es : List Event) (as : List Answer) :
    ((attempt es as).failing = none ∧ (attempt es as).emitted = es ∧ (attempt es as).left = as.drop (callCount es)) ∨
      ∃ pre e post, es = pre ++ e :: post ∧ e.canFail = true ∧ (attempt es as).failing = some e ∧
        (attempt es as).emitted = pre ++ [e] ∧ (attempt es as).left = as.drop (callCount pre + 1) ∧
        as[callCount pre]? = some .fail ∧ ∀ k < callCount pre, as[k]? ≠ some .fail := by
  induction es generalizing as with
  | nil => simp [callCount]
  | cons e es ih =>
    rcases attempt_cons e es as with ⟨he, h⟩ | ⟨he, ha, h⟩ | ⟨he, ha, h⟩
    · rw [h]
      rcases ih as with ⟨h1, h2, h3⟩ | ⟨pre, e', post, rfl, h1, h2, h3, h4, h5, h6⟩
      · left; simp [h1, h2, h3, callCount, he]
      · right; exact ⟨e :: pre, e', post, by simp, h1, by simpa using h2, by simp [h3],
          by simpa [callCount, he] using h4, by simpa [callCount, he] using h5,
          by simpa [callCount, he] using h6⟩
    · rw [h]
      rcases ih as.tail with ⟨h1, h2, h3⟩ | ⟨pre, e', post, rfl, h1, h2, h3, h4, h5, h6⟩
      · left; simp [h1, h2, h3, callCount, he]
      · right
        refine ⟨e :: pre, e', post, by simp, h1, by simpa using h2, by simp [h3], ?_, ?_, ?_⟩
        · simpa [callCount, he] using h4
        · simpa [callCount, he] using h5
        · intro k hk
          cases k with
          | zero => cases as <;> simp_all
          | succ k =>
            have := h6 k (by simpa [callCount, he] using hk)
            simpa using this
    · obtain ⟨left, rfl⟩ : ∃ left, as = .fail :: left := by cases as <;> simp_all
      right
      exact ⟨[], e, es, by simp, he, by simp [h], by simp [h], by simp [h, callCount], by simp [callCount],
        by simp [callCount]⟩

/-- With no failing answer, everything is issued. -/
theorem attempt_of_no_fail {as : List Answer} (h : Answer.fail ∉ as) (es : List Event) :
    attempt es as = ⟨es, as.drop (callCount es), none⟩ := by
  rcases attempt_cases es as with ⟨h1, h2, h3⟩ | ⟨pre, e, post, -, -, -, -, -, h5, -⟩
  · cases hA : attempt es as; simp_all
  · exact absurd (List.mem_of_getElem? h5) h

/-- What is issued is a prefix of the list. -/
theorem attempt_emitted_prefix (es : List Event) (as : List Answer) : (attempt es as).emitted <+: es := by
  rcases attempt_cases es as with ⟨-, h, -⟩ | ⟨pre, e, post, rfl, -, -, h, -⟩
  · simp [h]
  · rw [h]; exact ⟨post, by simp⟩

/-- `attemptAll` issues everything. -/
@[simp] theorem attemptAll_emitted (es : List Event) (as : List Answer) : (attemptAll es as).emitted = es := by
  induction es generalizing as with
  | nil => simp [attemptAll]
  | cons e es ih =>
    unfold attemptAll
    split
    · split <;> simp [ih]
    · simp [ih]

/-- `attemptAll` takes one answer for every call. -/
@[simp] theorem attemptAll_left (es : List Event) (as : List Answer) :
    (attemptAll es as).left = as.drop (callCount es) := by
  induction es generalizing as with
  | nil => simp [attemptAll, callCount]
  | cons e es ih =>
    unfold attemptAll
    split
    · split <;> simp_all [callCount]
    · simp_all [callCount]

/-- The call that `attemptAll` reports is the first that `attempt` would have stopped at. -/
theorem attemptAll_failing (es : List Event) (as : List Answer) :
    (attemptAll es as).failing = (attempt es as).failing := by
  induction es generalizing as with
  | nil => simp [attemptAll]
  | cons e es ih =>
    unfold attemptAll
    rcases attempt_cons e es as with ⟨he, h⟩ | ⟨he, ha, h⟩ | ⟨he, ha, h⟩
    · simp [he, h, ih]
    · match as with
      | [] => simp_all
      | .ok :: as => simp_all
      | .fail :: as => simp at ha
    · obtain ⟨left, rfl⟩ : ∃ left, as = .fail :: left := by cases as <;> simp_all
      simp [he, h]

end Sys2Proof.Machine
end

