-- ==== Sys2Proof/Laws/Sequencer.lean ====
section
/-! SUPPORT. What the shared operations of a request do, said once: issuing, framing, admission, release. -/

namespace Sys2Proof.Machine

/-! ## Once stopped, nothing more happens -/

theorem Sequencer.emit_stopped {q : Sequencer} {x} (h : q.stop = some x) (es) : q.emit es = q := by
  simp [Sequencer.emit, h]

theorem Sequencer.write_stopped {q : Sequencer} {x} (h : q.stop = some x) (f) : q.write f = q := by
  simp [Sequencer.write, h]

theorem Sequencer.emit_running {q : Sequencer} (h : q.stop = none) (es) :
    q.emit es = q.settle (attempt es q.answers) := by
  simp [Sequencer.emit, h]

theorem Sequencer.write_running {q : Sequencer} (h : q.stop = none) (f) : q.write f = { q with ses := f q.ses } := by
  simp [Sequencer.write, h]

/-- Issuing changes no configuration. -/
@[simp] theorem Sequencer.emit_cfg (q : Sequencer) (es) : (q.emit es).ses.cfg = q.ses.cfg := by
  unfold Sequencer.emit; split <;> simp

/-! ## Issuing one list after another is issuing their concatenation -/

theorem Session.record_record (ses : Session) (a b : Attempt) (h : a.failing = none) :
    (ses.record a).record b = ses.record { b with emitted := a.emitted ++ b.emitted } := by
  simp [Session.record, h, ioFaultAfter]

theorem Sequencer.emit_emit (q : Sequencer) (es fs : List Event) : (q.emit es).emit fs = q.emit (es ++ fs) := by
  cases hq : q.stop with
  | some x => simp [Sequencer.emit_stopped hq]
  | none =>
    rw [Sequencer.emit_running hq, Sequencer.emit_running hq, attempt_append]
    cases hf : (attempt es q.answers).failing with
    | some e => rw [Sequencer.emit_stopped (x := .error (errorOfFailing e)) (by simp [hf])]
    | none =>
      have hem : (attempt es q.answers).emitted = es := by
        rcases attempt_cases es q.answers with ⟨-, h, -⟩ | ⟨_, _, _, -, -, h, -⟩
        · exact h
        · rw [hf] at h; cases h
      rw [Sequencer.emit_running (by simp [hf])]
      simp only [Sequencer.settle, Session.record_record _ _ _ hf, hem]

@[simp] theorem Sequencer.emit_nil (q : Sequencer) : q.emit [] = q := by
  cases hq : q.stop with
  | some x => exact Sequencer.emit_stopped hq []
  | none => rw [Sequencer.emit_running hq]; cases q; simp_all [Sequencer.settle, Session.record, ioFaultAfter]

/-! ## Framing is issuing a fixed event list -/

theorem Sequencer.send_eq (q : Sequencer) (rs value) :
    q.send rs value = q.emit (sendEvents q.ses.cfg.transport rs value) := by
  simp [Sequencer.send, Sequencer.sendNibble, sendEvents, Sequencer.emit_emit]

theorem Sequencer.command_eq (q : Sequencer) (value) :
    q.command value = q.emit (frames q.ses.cfg.transport [(false, value)]) := by
  simp [Sequencer.command, Sequencer.send_eq, frames]

theorem Sequencer.writeData_eq (q : Sequencer) (value) :
    q.writeData value = q.emit (frames q.ses.cfg.transport [(true, value)]) := by
  simp [Sequencer.writeData, Sequencer.send_eq, frames]

theorem Sequencer.longCommand_eq (q : Sequencer) (value) :
    q.longCommand value = q.emit (frames q.ses.cfg.transport [(false, value)] ++ [.wait longCommandWait]) := by
  simp [Sequencer.longCommand, Sequencer.command_eq, Sequencer.wait, Sequencer.emit_emit]

theorem frames_append (t : Transport) (us vs) : frames t (us ++ vs) = frames t us ++ frames t vs := by
  simp [frames]

theorem Sequencer.writeAllData_eq (q : Sequencer) (values : List Nat) :
    q.writeAllData values = q.emit (frames q.ses.cfg.transport (dataUnits values)) := by
  induction values generalizing q with
  | nil => simp [Sequencer.writeAllData, frames, dataUnits]
  | cons v vs ih =>
    have : q.writeAllData (v :: vs) = (q.writeData v).writeAllData vs := rfl
    rw [this, ih, Sequencer.writeData_eq, Sequencer.emit_emit, Sequencer.emit_cfg, ← frames_append]
    rfl

/-! ## The end of a request -/

/-- A request that began with `ses` and issued a fixed list ends as `State.attempted` says. -/
theorem Sequencer.outcome_emit (s : State) (ses : Session) (es : List Event) :
    ((Sequencer.start ses s.answers).emit es).outcome s = .next (s.attempted ses es) := by
  rw [Sequencer.emit_running rfl]
  cases h : (attempt es s.answers).failing <;>
    simp [Sequencer.outcome, State.attempted, h, resultOf]

theorem State.attempted_of_no_fail {s : State} (h : NoCallFails s) (ses : Session) (es : List Event) :
    s.attempted ses es =
      s.finish { ses with trace := ses.trace ++ es } (s.answers.drop (callCount es)) .ok := by
  simp [State.attempted, attempt_of_no_fail h, Session.record, ioFaultAfter, resultOf]

/-! ## Admission -/

theorem runReady_none {s : State} (h : s.session = none) (check body) :
    runReady s check body = .next (s.refuse .notReady) := by simp [runReady, h]

theorem runReady_not_ready {s : State} {ses} (h : s.session = some ses) (hp : ses.phase ≠ .ready) (check body) :
    runReady s check body = .next (s.refuse .notReady) := by simp [runReady, h, hp]

theorem runReady_rejected {s : State} {ses info} {check : Session → Option BadArgument} (h : s.session = some ses)
    (hp : ses.phase = .ready) (hc : check ses = some info) (body) :
    runReady s check body = .next (s.finish ses s.answers (.err (.invalidArgument info))) := by
  simp [runReady, h, hp, hc]

theorem runReady_admitted {s : State} {ses} {check : Session → Option BadArgument} (h : s.session = some ses)
    (hp : ses.phase = .ready) (hc : check ses = none) (body) :
    runReady s check body = (body (.start ses s.answers)).outcome s := by
  simp [runReady, h, hp, hc]

theorem runUnit_none {s : State} (h : s.session = none) (body) :
    runUnit s body = .next (s.refuse .notReady) := by simp [runUnit, h]

theorem runUnit_not_live {s : State} {ses} (h : s.session = some ses) (hp : ses.phase.isLive = false) (body) :
    runUnit s body = .next (s.refuse .notReady) := by simp [runUnit, h, hp]

theorem runUnit_live {s : State} {ses} (h : s.session = some ses) (hp : ses.phase.isLive = true) (body) :
    runUnit s body = (body (.start ses s.answers)).outcome s := by simp [runUnit, h, hp]

/-! ## Register updates -/

/-- A read-modify-write of a register that holds a value, with its resend, is one write and one fixed list. -/
theorem Sequencer.outcome_updateDisplayControl {s : State} {ses : Session} {dc : Byte} (h : ses.displayControl = some dc)
    (f : Byte → Byte) :
    ((Sequencer.start ses s.answers).updateDisplayControl f).outcome s =
      .next (s.attempted { ses with displayControl := some (f dc) }
        (frames ses.cfg.transport [(false, (displayControlCommand ||| f dc).toNat)])) := by
  rw [← Sequencer.outcome_emit]
  simp [Sequencer.updateDisplayControl, Sequencer.readRegister, h, Sequencer.write, Sequencer.command_eq, Sequencer.start]

theorem Sequencer.outcome_updateEntryMode {s : State} {ses : Session} {em : Byte} (h : ses.entryMode = some em)
    (f : Byte → Byte) :
    ((Sequencer.start ses s.answers).updateEntryMode f).outcome s =
      .next (s.attempted { ses with entryMode := some (f em) }
        (frames ses.cfg.transport [(false, (entryModeSetCommand ||| f em).toNat)])) := by
  rw [← Sequencer.outcome_emit]
  simp [Sequencer.updateEntryMode, Sequencer.readRegister, h, Sequencer.write, Sequencer.command_eq, Sequencer.start]

/-! ## Release -/

/-- `release`: every resource's call is issued whatever fails, `claimed` is emptied, the first failure is the result. -/
theorem Sequencer.outcome_release (s : State) (ses : Session) :
    ((Sequencer.start ses s.answers).release).outcome s =
      .next (s.finish
        { ses with
          trace := ses.trace ++ releaseEvents ses.cfg.transport ses.claimed
          ioFault := ioFaultAfter ses.ioFault (attempt (releaseEvents ses.cfg.transport ses.claimed) s.answers).failing
          claimed := [] }
        (s.answers.drop (callCount (releaseEvents ses.cfg.transport ses.claimed)))
        (resultOf (attempt (releaseEvents ses.cfg.transport ses.claimed) s.answers).failing)) := by
  simp only [Sequencer.release, Sequencer.emitAll, Sequencer.start_stop, Sequencer.start_ses, Sequencer.start_answers,
    Sequencer.outcome, Sequencer.settle, attemptAll_failing, attemptAll_left, Session.record, attemptAll_emitted]
  cases (attempt (releaseEvents ses.cfg.transport ses.claimed) s.answers).failing <;> rfl

end Sys2Proof.Machine
end

