-- ==== Sys2Proof/Laws/Construction.lean ====
section
/-! SUPPORT. What the construction sequence leaves, in closed form and for every list of answers. -/

namespace Sys2Proof.Machine

/-- A sequencer of a construction: its events so far are the attempt of `es`, and it is running just if nothing failed. -/
structure Follows (answers : List Answer) (es : List Event) (q : Sequencer) : Prop where
  trace : q.ses.trace = (attempt es answers).emitted
  left : q.answers = (attempt es answers).left
  ioFault : q.ses.ioFault = ioFaultAfter false (attempt es answers).failing
  stop : q.stop = (attempt es answers).failing.map fun e => .error (errorOfFailing e)

theorem Follows.running {as es q} (h : Follows as es q) (hf : (attempt es as).failing = none) : q.stop = none := by
  simp [h.stop, hf]

theorem Follows.stopped {as es q e} (h : Follows as es q) (hf : (attempt es as).failing = some e) :
    q.stop = some (.error (errorOfFailing e)) := by
  simp [h.stop, hf]

theorem attempt_append_of_failing {es : List Event} {as e} (hf : (attempt es as).failing = some e) (fs) :
    attempt (es ++ fs) as = attempt es as := by
  rw [attempt_append]; simp [hf]

theorem attempt_append_of_passed {es : List Event} {as} (hf : (attempt es as).failing = none) (fs) :
    attempt (es ++ fs) as = { attempt fs (attempt es as).left with
      emitted := es ++ (attempt fs (attempt es as).left).emitted } := by
  rw [attempt_append]; simp [hf]

theorem attempt_emitted_of_passed {es : List Event} {as} (hf : (attempt es as).failing = none) :
    (attempt es as).emitted = es := by
  rcases attempt_cases es as with ⟨-, h, -⟩ | ⟨_, _, _, -, -, h, -⟩
  · exact h
  · rw [hf] at h; cases h

/-- Issuing more keeps the correspondence. -/
theorem Follows.emit {as es q} (h : Follows as es q) (fs : List Event) : Follows as (es ++ fs) (q.emit fs) := by
  cases hf : (attempt es as).failing with
  | some e =>
    rw [Sequencer.emit_stopped (h.stopped hf)]
    exact ⟨by rw [attempt_append_of_failing hf, h.trace], by rw [attempt_append_of_failing hf, h.left],
      by rw [attempt_append_of_failing hf, h.ioFault], by rw [attempt_append_of_failing hf, h.stop]⟩
  | none =>
    rw [Sequencer.emit_running (h.running hf)]
    have hio : q.ses.ioFault = false := by simp [h.ioFault, hf, ioFaultAfter]
    constructor
    · simp [attempt_append_of_passed hf, h.trace, h.left, attempt_emitted_of_passed hf]
    · simp [attempt_append_of_passed hf, h.left]
    · simp [attempt_append_of_passed hf, h.left, hio]
    · simp [attempt_append_of_passed hf, h.left]

/-- A write that leaves the trace and `io_fault` alone keeps it too. -/
theorem Follows.write {as es q} (h : Follows as es q) {f : Session → Session} (ht : ∀ ses, (f ses).trace = ses.trace)
    (hi : ∀ ses, (f ses).ioFault = ses.ioFault) : Follows as es (q.write f) := by
  cases hq : q.stop with
  | some x => rw [Sequencer.write_stopped hq]; exact h
  | none => rw [Sequencer.write_running hq]; exact ⟨by simp [ht, h.trace], h.left, by simp [hi, h.ioFault], h.stop⟩

/-- Issuing changes only the trace and `io_fault` of the session. -/
theorem Sequencer.emit_ses (q : Sequencer) (es : List Event) :
    (q.emit es).ses = { q.ses with trace := (q.emit es).ses.trace, ioFault := (q.emit es).ses.ioFault } := by
  unfold Sequencer.emit; split <;> rfl

/-- How many of a list of claims succeed. -/
def claimedCount (cs : List (Event × Resource)) (as : List Answer) : Nat :=
  match (attempt (cs.map Prod.fst) as).failing with
  | none => cs.length
  | some _ => (attempt (cs.map Prod.fst) as).emitted.length - 1

theorem attempt_emitted_ne_nil {es : List Event} {as e} (hf : (attempt es as).failing = some e) :
    0 < (attempt es as).emitted.length := by
  rcases attempt_cases es as with ⟨h, -⟩ | ⟨_, _, _, -, -, -, h, -⟩
  · rw [hf] at h; cases h
  · simp [h]

theorem Sequencer.claim_stopped {q : Sequencer} {x} (h : q.stop = some x) (c) : q.claim c = q := by
  rw [Sequencer.claim, Sequencer.emit_stopped h, Sequencer.write_stopped h]

theorem Sequencer.claims_stopped {q : Sequencer} {x} (h : q.stop = some x) (cs : List (Event × Resource)) :
    cs.foldl Sequencer.claim q = q := by
  induction cs with
  | nil => rfl
  | cons c cs ih => rw [List.foldl_cons, Sequencer.claim_stopped h, ih]

/-- One call and the rest of a list, when the call succeeded. -/
theorem Sequencer.claim_passed {q : Sequencer} {c : Event × Resource} {as : List Answer} (h : q.stop = none)
    (ha : attempt [c.1] q.answers = ⟨[c.1], as, none⟩) :
    q.claim c = ⟨{ q.ses with trace := q.ses.trace ++ [c.1], claimed := q.ses.claimed ++ [c.2] }, as, none⟩ := by
  rw [Sequencer.claim, Sequencer.emit_running h, ha, Sequencer.write_running (by simp)]
  simp [Sequencer.settle, Session.record, ioFaultAfter]

/-- The claims, one after the other: the calls are the attempt of their list, and the resources of those that succeeded join
`claimed`. -/
theorem Sequencer.claims_eq (cs : List (Event × Resource)) {q : Sequencer} (h : q.stop = none) :
    cs.foldl Sequencer.claim q =
      { q.settle (attempt (cs.map Prod.fst) q.answers) with
        ses := { q.ses.record (attempt (cs.map Prod.fst) q.answers) with
          claimed := q.ses.claimed ++ (cs.map Prod.snd).take (claimedCount cs q.answers) } } := by
  induction cs generalizing q with
  | nil => cases q; simp_all [Sequencer.settle, Session.record, ioFaultAfter]
  | cons c cs ih =>
    have passed : ∀ as : List Answer, attempt [c.1] q.answers = ⟨[c.1], as, none⟩ →
        attempt ((c :: cs).map Prod.fst) q.answers = (attempt (cs.map Prod.fst) as).after c.1 →
        List.foldl Sequencer.claim q (c :: cs) = { q.settle (attempt ((c :: cs).map Prod.fst) q.answers) with
          ses := { q.ses.record (attempt ((c :: cs).map Prod.fst) q.answers) with
            claimed := q.ses.claimed ++ ((c :: cs).map Prod.snd).take (claimedCount (c :: cs) q.answers) } } := by
      intro as h1 h2
      have hn : claimedCount (c :: cs) q.answers = claimedCount cs as + 1 := by
        unfold claimedCount
        rw [h2]
        cases hf : (attempt (cs.map Prod.fst) as).failing with
        | none => simp [hf]
        | some e => have := attempt_emitted_ne_nil hf; simp [hf]; omega
      rw [List.foldl_cons, Sequencer.claim_passed h h1, ih rfl, h2, hn]
      simp [Sequencer.settle, Session.record]
    rcases attempt_cons c.1 (cs.map Prod.fst) q.answers with ⟨he, ha⟩ | ⟨he, hd, ha⟩ | ⟨he, hd, ha⟩
    · exact passed _ (by simp [attempt_cons_wait he, Attempt.after]) ha
    · exact passed _ (by simp [attempt_cons_ok he [] hd, Attempt.after]) ha
    · obtain ⟨left, hl⟩ : ∃ left, q.answers = .fail :: left := by
        cases hq : q.answers <;> simp_all
      have hc : q.claim c = q.settle ⟨[c.1], left, some c.1⟩ := by
        rw [Sequencer.claim, Sequencer.emit_running h, hl, attempt_cons_fail he,
          Sequencer.write_stopped (x := .error (errorOfFailing c.1)) (by simp)]
      rw [List.foldl_cons, hc, Sequencer.claims_stopped (x := .error (errorOfFailing c.1)) (by simp)]
      simp [claimedCount, hl, attempt_cons_fail he, Sequencer.settle, Session.record]

/-! ## The whole sequence -/

/-- A step of the sequence: events, then a write of the session. -/
theorem Follows.emit_write {as es q} (h : Follows as es q) (fs : List Event) {f : Session → Session}
    (ht : ∀ ses, (f ses).trace = ses.trace) (hi : ∀ ses, (f ses).ioFault = ses.ioFault) :
    Follows as (es ++ fs) ((q.emit fs).write f) := (h.emit fs).write ht hi

/-- The fields that are not the phase, the trace or `io_fault`. -/
structure Holds (cfg : SessionConfig) (dc em : Option Byte) (claimed : List Resource) (q : Sequencer) : Prop where
  config : q.ses.cfg = cfg
  displayFunction : q.ses.displayFunction = some (initialDisplayFunction cfg.numLines cfg.dotSize)
  displayControl : q.ses.displayControl = dc
  entryMode : q.ses.entryMode = em
  claimed : q.ses.claimed = claimed
  refused : q.ses.refused = false

theorem Holds.emit {cfg dc em cl q} (h : Holds cfg dc em cl q) (es) : Holds cfg dc em cl (q.emit es) := by
  constructor <;> rw [Sequencer.emit_ses]
  exacts [h.config, h.displayFunction, h.displayControl, h.entryMode, h.claimed, h.refused]

theorem Holds.phase {cfg dc em cl q} (h : Holds cfg dc em cl q) (p) :
    Holds cfg dc em cl (q.write fun ses => { ses with phase := p }) := by
  unfold Sequencer.write; split
  · exact h
  · exact ⟨h.config, h.displayFunction, h.displayControl, h.entryMode, h.claimed, h.refused⟩

/-- The sequence up to and with step 5. -/
def throughStep5 (cfg : SessionConfig) (as : List Answer) : Sequencer :=
  (((Sequencer.start (Session.new cfg) as).setDisplayFunction.initialize cfg.transport).step1.step2.step3.step4).step5

theorem initialize_holds (cfg : SessionConfig) (as : List Answer) :
    Holds cfg none none ((allResources cfg.transport).take (claimsMade cfg.transport as))
        ((Sequencer.start (Session.new cfg) as).setDisplayFunction.initialize cfg.transport) ∧
      Follows as (claimEvents cfg.transport)
        ((Sequencer.start (Session.new cfg) as).setDisplayFunction.initialize cfg.transport) ∧
      ((Sequencer.start (Session.new cfg) as).setDisplayFunction.initialize cfg.transport).ses.phase
        = .uninitialized := by
  rw [Sequencer.initialize, Sequencer.claims_eq _ (by simp [Sequencer.setDisplayFunction, Sequencer.write])]
  refine ⟨⟨?_, ?_, ?_, ?_, ?_, ?_⟩, ⟨?_, ?_, ?_, ?_⟩, ?_⟩ <;>
    simp [Sequencer.setDisplayFunction, Sequencer.write, Session.new, Sequencer.settle, Session.record, claimEvents,
      allResources, claimsMade, claimedCount, Sequencer.start]
  all_goals rfl

theorem step3_eq (q : Sequencer) : q.step3 = q.emit (nibbleEvents q.ses.cfg.transport false 0x3 ++ [.wait 4500]
    ++ nibbleEvents q.ses.cfg.transport false 0x3 ++ [.wait 4500] ++ nibbleEvents q.ses.cfg.transport false 0x3
    ++ [.wait 150]) := by
  simp [Sequencer.step3, Sequencer.sendNibble, Sequencer.wait, Sequencer.emit_emit, firstHandshakeWait,
    secondHandshakeWait, thirdHandshakeWait]

theorem throughStep5_holds (cfg : SessionConfig) (as : List Answer) :
    Holds cfg none none ((allResources cfg.transport).take (claimsMade cfg.transport as)) (throughStep5 cfg as) ∧
      Follows as (eventsBeforeStep6 cfg) (throughStep5 cfg as) := by
  obtain ⟨h, f, -⟩ := initialize_holds cfg as
  unfold throughStep5
  generalize (Sequencer.start (Session.new cfg) as).setDisplayFunction.initialize cfg.transport = q at h f ⊢
  -- steps 1 to 3
  have e3 : q.step1.step2.step3 = q.emit ([.wait 50000] ++ beginEvents cfg.transport
      ++ nibbleEvents cfg.transport false 0x3 ++ [.wait 4500] ++ nibbleEvents cfg.transport false 0x3 ++ [.wait 4500]
      ++ nibbleEvents cfg.transport false 0x3 ++ [.wait 150]) := by
    rw [step3_eq, Sequencer.step2, Sequencer.step1, Sequencer.wait]
    simp [Sequencer.emit_emit, h.config, powerOnWait]
  -- step 4
  have e4 : q.step1.step2.step3.step4 = (q.emit (handshakeEvents cfg.transport)).write
      fun ses => { ses with phase := .handshakeIn4BitMode } := by
    rw [Sequencer.step4, e3, Sequencer.sendNibble, Sequencer.emit_emit]
    simp [h.config, handshakeEvents]
  have h4 := (h.emit (handshakeEvents cfg.transport)).phase .handshakeIn4BitMode
  have f4 := f.emit_write (handshakeEvents cfg.transport) (f := fun ses => { ses with phase := .handshakeIn4BitMode })
    (fun _ => rfl) (fun _ => rfl)
  rw [← e4] at h4 f4
  -- step 5
  generalize q.step1.step2.step3.step4 = q4 at h4 f4 ⊢
  have e5 : q4.step5 = q4.emit (frames cfg.transport
      [(false, 0x20 ||| (initialDisplayFunction cfg.numLines cfg.dotSize).toNat)]) := by
    unfold Sequencer.step5 Sequencer.readRegister
    cases hq : q4.stop with
    | some x => rw [Sequencer.emit_stopped hq]
    | none => simp [h4.displayFunction, Sequencer.command_eq, h4.config, functionSetCommand]
  rw [e5]
  exact ⟨h4.emit _, by simpa [eventsBeforeStep6] using f4.emit _⟩

/-- Step 6, 7: from a sequencer that has followed the list so far. -/
theorem step7_holds {cfg : SessionConfig} {as cl q} (h : Holds cfg none none cl q)
    (f : Follows as (eventsBeforeStep6 cfg) q) :
    Holds cfg (if (attempt (eventsBeforeStep6 cfg) as).failing = none then some 0x04 else none) none cl q.step6.step7 ∧
      Follows as (eventsBeforeStep8 cfg) q.step6.step7 := by
  have hw : Holds cfg (if (attempt (eventsBeforeStep6 cfg) as).failing = none then some 0x04 else none) none cl
      (q.write fun ses => { ses with displayControl := some initialDisplayControl }) := by
    cases hf : (attempt (eventsBeforeStep6 cfg) as).failing with
    | some e => rw [Sequencer.write_stopped (f.stopped hf)]; simpa using h
    | none =>
      rw [Sequencer.write_running (f.running hf)]
      exact ⟨h.config, h.displayFunction, by simp [initialDisplayControl, displayOnFlag, cursorOffFlag, blinkOffFlag],
        h.entryMode, h.claimed, h.refused⟩
  have fw := f.write (f := fun ses => { ses with displayControl := some initialDisplayControl })
    (fun _ => rfl) (fun _ => rfl)
  have e : q.step6.step7 = (q.write fun ses => { ses with displayControl := some initialDisplayControl }).emit
      (frames cfg.transport [(false, 0x0C), (false, 0x01)] ++ [.wait 2000]) := by
    have c6 : (displayControlCommand ||| initialDisplayControl).toNat = 0x0C := rfl
    have c7 : clearDisplayCommand.toNat = 0x01 := rfl
    rw [Sequencer.step7, Sequencer.step6, Sequencer.longCommand_eq, Sequencer.command_eq, Sequencer.emit_emit,
      Sequencer.emit_cfg, hw.config, c6, c7]
    simp [frames, longCommandWait]
  rw [e]
  exact ⟨hw.emit _, by simpa [eventsBeforeStep8] using fw.emit _⟩

/-- Step 8, and the phase of a failed construction. -/
theorem step8_holds {cfg : SessionConfig} {as cl dc q} (h : Holds cfg dc none cl q)
    (f : Follows as (eventsBeforeStep8 cfg) q) :
    Holds cfg dc (if (attempt (eventsBeforeStep8 cfg) as).failing = none then some 0x02 else none) cl
        q.step8.failConstruction ∧
      Follows as (constructionEvents cfg) q.step8.failConstruction ∧
      q.step8.failConstruction.ses.phase
        = if (attempt (constructionEvents cfg) as).failing = none then .ready else .failed := by
  have hw : Holds cfg dc (if (attempt (eventsBeforeStep8 cfg) as).failing = none then some 0x02 else none) cl
      (q.write fun ses => { ses with entryMode := some initialEntryMode }) := by
    cases hf : (attempt (eventsBeforeStep8 cfg) as).failing with
    | some e => rw [Sequencer.write_stopped (f.stopped hf)]; simpa using h
    | none =>
      rw [Sequencer.write_running (f.running hf)]
      exact ⟨h.config, h.displayFunction, h.displayControl,
        by simp [initialEntryMode, entryLeftFlag, entryShiftDecrementFlag], h.claimed, h.refused⟩
  have fw := (f.write (f := fun ses => { ses with entryMode := some initialEntryMode })
    (fun _ => rfl) (fun _ => rfl)).emit (frames cfg.transport [(false, 0x06)])
  have h8 := hw.emit (frames cfg.transport [(false, 0x06)])
  have e : q.step8 = ((q.write fun ses => { ses with entryMode := some initialEntryMode }).emit
      (frames cfg.transport [(false, 0x06)])).write fun ses => { ses with phase := .ready } := by
    rw [Sequencer.step8, Sequencer.command_eq, hw.config]
    rfl
  rw [e]
  change Follows as (constructionEvents cfg) _ at fw
  generalize ((q.write fun ses => { ses with entryMode := some initialEntryMode }).emit
      (frames cfg.transport [(false, 0x06)])) = q8 at h8 fw ⊢
  cases hf : (attempt (constructionEvents cfg) as).failing with
  | none =>
    have hs := fw.running hf
    have hq : (q8.write fun ses => { ses with phase := .ready }).failConstruction
        = q8.write fun ses => { ses with phase := .ready } := by
      simp [Sequencer.failConstruction, Sequencer.write_running hs, hs]
    rw [hq]
    exact ⟨h8.phase _, fw.write (fun _ => rfl) (fun _ => rfl), by simp [Sequencer.write_running hs]⟩
  | some x =>
    have hs := fw.stopped hf
    have hq : (q8.write fun ses => { ses with phase := .ready }).failConstruction
        = { q8 with ses := { q8.ses with phase := .failed } } := by
      simp [Sequencer.failConstruction, Sequencer.write_stopped hs, hs]
    rw [hq]
    exact ⟨⟨h8.config, h8.displayFunction, h8.displayControl, h8.entryMode, h8.claimed, h8.refused⟩,
      ⟨fw.trace, fw.left, fw.ioFault, fw.stop⟩, by simp⟩

/-- What a construction leaves, whatever the answers. -/
theorem runConstruction_eq (cfg : SessionConfig) (s : State) : runConstruction cfg s = .next (s.constructed cfg) := by
  obtain ⟨h5, f5⟩ := throughStep5_holds cfg s.answers
  obtain ⟨h7, f7⟩ := step7_holds h5 f5
  obtain ⟨h8, f8, hp⟩ := step8_holds h7 f7
  have hq : (constructionSequence cfg s.answers).failConstruction
      = (throughStep5 cfg s.answers).step6.step7.step8.failConstruction := rfl
  rw [runConstruction, hq]
  generalize (throughStep5 cfg s.answers).step6.step7.step8.failConstruction = q at h8 f8 hp ⊢
  have hses : q.ses = constructedSession cfg s.answers := by
    obtain ⟨ses, as, stop⟩ := q
    cases ses
    simp only [constructedSession, Session.mk.injEq]
    exact ⟨hp, h8.config, h8.displayFunction, h8.displayControl, h8.entryMode, h8.claimed, f8.ioFault, h8.refused, f8.trace⟩
  unfold Sequencer.outcome
  cases hf : (attempt (constructionEvents cfg) s.answers).failing with
  | none => simp [f8.stop, hf, State.finish, State.constructed, hses, f8.left, State.retireSession, resultOf]
  | some e => simp [f8.stop, hf, State.finish, State.constructed, hses, f8.left, State.retireSession, resultOf]

end Sys2Proof.Machine
end

