-- ==== Sys2Proof/Laws/Decode.lean ====
section
/-! SUPPORT. What reading an optional constructor argument can give, one lemma per form. -/

namespace Sys2Proof

@[simp] theorem takeNat_nil (a : OptionalArgument) (d : Nat) : takeNat a d [] = (d, []) := rfl

@[simp] theorem takeNat_nat (a : OptionalArgument) (d v : Nat) (rest : List Operand) :
    takeNat a d (.nat v :: rest) = (v, rest) := rfl

@[simp] theorem takeNat_named (a : OptionalArgument) (d v : Nat) (rest : List Operand) :
    takeNat a d (.keyword a v :: rest) = (v, rest) := by simp [takeNat]

theorem takeNat_named_other {a b : OptionalArgument} (h : b ≠ a) (d v : Nat) (rest : List Operand) :
    takeNat a d (.keyword b v :: rest) = (d, .keyword b v :: rest) := by simp [takeNat, h]

@[simp] theorem takePin_nil (a : OptionalArgument) : takePin a [] = (none, []) := rfl

@[simp] theorem takePin_optPin (a : OptionalArgument) (p : Option Pin) (rest : List Operand) :
    takePin a (.optPin p :: rest) = (p, rest) := rfl

@[simp] theorem takePin_nat (a : OptionalArgument) (v : Nat) (rest : List Operand) :
    takePin a (.nat v :: rest) = (none, .nat v :: rest) := rfl

@[simp] theorem takePin_named (a : OptionalArgument) (v : Nat) (rest : List Operand) :
    takePin a (.keyword a v :: rest) = (some v, rest) := by simp [takePin]

theorem takePin_named_other {a b : OptionalArgument} (h : b ≠ a) (v : Nat) (rest : List Operand) :
    takePin a (.keyword b v :: rest) = (none, .keyword b v :: rest) := by simp [takePin, h]

end Sys2Proof
end

