-- ==== Sys2Proof/Laws/Operands.lean ====
section
/-! SUPPORT. Operand assembly in closed form: nibbles, expander bytes, addresses. -/

namespace Sys2Proof.Machine

/-! ## Nibbles and the expander byte -/

theorem highNibble_eq (value : Nat) : highNibble value = BitVec.ofNat 4 (value / 16) := by
  apply BitVec.eq_of_toNat_eq
  have h := Nat.and_two_pow_sub_one_eq_mod (value / 16) 4
  rw [highNibble, Nat.shiftRight_and_distrib, Nat.shiftRight_eq_div_pow]
  simp only [BitVec.toNat_ofNat]
  change (value / 16 &&& (2 ^ 4 - 1)) % 16 = _
  rw [h]; omega

theorem lowNibble_eq (value : Nat) : lowNibble value = BitVec.ofNat 4 value := by
  apply BitVec.eq_of_toNat_eq
  have h := Nat.and_two_pow_sub_one_eq_mod value 4
  simp only [lowNibble, BitVec.toNat_ofNat]
  change (value &&& (2 ^ 4 - 1)) % 16 = _
  rw [h]; omega

theorem getLsbD_ofNat_four (value i : Nat) :
    (BitVec.ofNat 4 value).getLsbD i = (decide (i < 4) && value.testBit i) := by
  simp [BitVec.getLsbD, BitVec.toNat_ofNat, -Nat.reducePow]

theorem testBit_div_sixteen (value i : Nat) : (value / 16).testBit i = value.testBit (i + 4) := by
  rw [show (16 : Nat) = 2 ^ 4 from rfl, Nat.testBit_div_two_pow, Nat.add_comm]

theorem expanderByte_eq (rs : Bool) (n : Nibble) (e : Bool) :
    expanderByte rs n e = BitVec.ofNat 8 (16 * n.toNat + 8 + 4 * e.toNat + rs.toNat) := by
  revert rs n e; decide

/-! ## Addresses -/

theorem rowOffset_eq {row : Nat} (h : row < 4) : rowOffset row = [0x00, 0x40, 0x14, 0x54].getD row 0 := by
  interval_cases row <;> rfl

theorem rowOffset_le {row : Nat} (h : row < 4) : rowOffset row ≤ 0x54 := by
  interval_cases row <;> decide

theorem clampRow_eq (numLines row : Nat) : clampRow numLines row = min row (numLines - 1) := by
  unfold clampRow; split <;> omega

theorem setCursorValue_eq {numLines : Nat} (h : numLines ≤ 4) (row col : Nat) :
    setCursorValue numLines row col =
      0x80 ||| ([0x00, 0x40, 0x14, 0x54].getD (min row (numLines - 1)) 0 + col) := by
  rw [setCursorValue, ddramAddress, clampRow_eq, rowOffset_eq (by omega)]; rfl

theorem glyphSlotValue_eq (location : Nat) : glyphSlotValue location = 0x40 + 8 * (location % 8) := by
  rw [glyphSlotValue, show (0x7 : Nat) = 2 ^ 3 - 1 from rfl, Nat.and_two_pow_sub_one_eq_mod, Nat.shiftLeft_eq]
  have : setCgramAddrCommand.toNat = 2 ^ 6 * 1 := rfl
  rw [this, ← Nat.two_pow_add_eq_or_of_lt (by omega)]
  omega

/-! ## Register flags -/

/-- Setting a flag outside a mask of reserved bits leaves those bits 0. -/
theorem setFlag_reserved {register flag mask : Byte} (hr : register &&& mask = 0) (hf : flag &&& mask = 0) :
    setFlag register flag &&& mask = 0 := by
  have h : setFlag register flag &&& mask = (register &&& mask) ||| (flag &&& mask) := by
    ext i hi; simp [setFlag, Bool.and_or_distrib_right]
  rw [h, hr, hf]; rfl

/-- Clearing a flag leaves reserved bits 0. -/
theorem clearFlag_reserved {register mask : Byte} (flag : Byte) (hr : register &&& mask = 0) :
    clearFlag register flag &&& mask = 0 := by
  have h : clearFlag register flag &&& mask = (register &&& mask) &&& ~~~flag := by
    ext i hi; simp [clearFlag, Bool.and_right_comm]
  rw [h, hr]; simp

/-! ## Results without an effect -/

/-- A request that leaves the session and the answers as they were changes only the result. -/
theorem State.finish_same {s : State} {ses : Session} (h : s.session = some ses) (r : RequestResult) :
    s.finish ses s.answers r = { s with result := some r } := by
  cases s; simp_all [State.finish]

end Sys2Proof.Machine
end

