-- ==== Sys2Proof/Laws/PerInstr.lean ====
section
/-! SUPPORT. The family RoundTrip, one lemma per instruction: decoding an encoded instruction gives it back. -/

namespace Sys2Proof.Laws.RoundTrip

/-- No bit and no operand of the encoding is dropped. -/
def Statement (i : Instr) : Prop := decode (encode i) = .ok i

theorem clearDisplay : Statement .clearDisplay := rfl
theorem returnHome : Statement .returnHome := rfl
theorem entryModeSet (a : Bool) (b : Bool) : Statement (.entryModeSet a b) := by cases a <;> cases b <;> rfl
theorem displayControl (a : Bool) (b : Bool) (c : Bool) : Statement (.displayControl a b c) := by cases a <;> cases b <;> cases c <;> rfl
theorem cursorShift (a : Bool) (b : Bool) : Statement (.cursorShift a b) := by cases a <;> cases b <;> rfl
theorem functionSet (a : Bool) (b : Bool) (c : Bool) : Statement (.functionSet a b c) := by cases a <;> cases b <;> cases c <;> rfl
theorem setCgramAddr (a : BitVec 6) : Statement (.setCgramAddr a) := by revert a; unfold Statement; decide
theorem setDdramAddr (a : BitVec 7) : Statement (.setDdramAddr a) := by revert a; unfold Statement; decide
theorem dataWrite (a : Byte) : Statement (.dataWrite a) := by revert a; unfold Statement; decide
theorem handshakeNibble3 : Statement .handshakeNibble3 := rfl
theorem handshakeNibble2 : Statement .handshakeNibble2 := rfl
theorem constructGpio (a : Pin) (b : Pin) (c : List Pin) (d : Option Pin) (e : Option Pin) (f : Nat) (g : Nat) (h : Nat) : Statement (.constructGpio a b c d e f g h) := rfl
theorem constructI2c (a : BusAddress) (b : Nat) (c : Nat) (d : Nat) : Statement (.constructI2c a b c d) := rfl
theorem clear : Statement .clear := rfl
theorem home : Statement .home := rfl
theorem setCursor (a : Nat) (b : Nat) : Statement (.setCursor a b) := rfl
theorem writeText (a : List Nat) (b : Justify) : Statement (.writeText a b) := by cases b <;> rfl
theorem writeRaw (a : Nat) (b : Nat) (c : Nat) : Statement (.writeRaw a b c) := rfl
theorem createChar (a : Nat) (b : List Nat) : Statement (.createChar a b) := rfl
theorem display : Statement .display := rfl
theorem noDisplay : Statement .noDisplay := rfl
theorem cursor : Statement .cursor := rfl
theorem noCursor : Statement .noCursor := rfl
theorem blink : Statement .blink := rfl
theorem noBlink : Statement .noBlink := rfl
theorem scrollLeft : Statement .scrollLeft := rfl
theorem scrollRight : Statement .scrollRight := rfl
theorem leftToRight : Statement .leftToRight := rfl
theorem rightToLeft : Statement .rightToLeft := rfl
theorem autoscroll : Statement .autoscroll := rfl
theorem noAutoscroll : Statement .noAutoscroll := rfl
theorem enableBacklight (a : Int) : Statement (.enableBacklight a) := rfl
theorem disableBacklight : Statement .disableBacklight := rfl
theorem cleanup : Statement .cleanup := rfl
theorem reservedRequest17 : Statement .reservedRequest17 := rfl
theorem reservedRequest18 (a : BitVec 3) : Statement (.reservedRequest18 a) := by revert a; unfold Statement; decide

end Sys2Proof.Laws.RoundTrip
end

