-- ==== Sys2Proof/Laws/Requests.lean ====
section
/-! SUPPORT. Every request that needs phase Ready, said once: its argument check, its register update, its events. -/

namespace Sys2Proof.Machine

/-- The argument check of a request (43_operations.md R212, R215, R216). -/
def requestProblem : Instr → Session → Option BadArgument
  | .setCursor _ col, ses | .writeRaw _ _ col, ses => columnProblem col ses
  | .createChar _ bitmap, ses => bitmapProblem bitmap ses
  | _, _ => none

/-- The session with `display_control` updated; `none` where it holds no value. -/
def Session.updateDisplayControl (f : Byte → Byte) (ses : Session) : Option Session :=
  ses.displayControl.map fun dc => { ses with displayControl := some (f dc) }

/-- The session with `entry_mode` updated; `none` where it holds no value. -/
def Session.updateEntryMode (f : Byte → Byte) (ses : Session) : Option Session :=
  ses.entryMode.map fun em => { ses with entryMode := some (f em) }

/-- The register writes of a request. -/
def requestWrites : Instr → Session → Option Session
  | .display, ses => ses.updateDisplayControl fun dc => setFlag dc displayOnFlag
  | .noDisplay, ses => ses.updateDisplayControl fun dc => clearFlag dc displayOnFlag
  | .cursor, ses => ses.updateDisplayControl fun dc => setFlag dc cursorOnFlag
  | .noCursor, ses => ses.updateDisplayControl fun dc => clearFlag dc cursorOnFlag
  | .blink, ses => ses.updateDisplayControl fun dc => setFlag dc blinkOnFlag
  | .noBlink, ses => ses.updateDisplayControl fun dc => clearFlag dc blinkOnFlag
  | .leftToRight, ses => ses.updateEntryMode fun em => setFlag em entryLeftFlag
  | .rightToLeft, ses => ses.updateEntryMode fun em => clearFlag em entryLeftFlag
  | .autoscroll, ses => ses.updateEntryMode fun em => setFlag em entryShiftIncrementFlag
  | .noAutoscroll, ses => ses.updateEntryMode fun em => clearFlag em entryShiftIncrementFlag
  | _, ses => some ses

/-- The protocol units a request sends, from the session with its registers written. -/
def requestUnits : Instr → Session → List (Level × Nat)
  | .clear, _ => [(false, 0x01)]
  | .home, _ => [(false, 0x02)]
  | .setCursor row col, ses => [(false, setCursorValue ses.cfg.numLines row col)]
  | .writeText text justify, ses => dataUnits (justifyText text ses.cfg.columns justify)
  | .writeRaw glyph row col, ses => [(false, setCursorValue ses.cfg.numLines row col), (true, glyph)]
  | .createChar location bitmap, _ => (false, glyphSlotValue location) :: dataUnits bitmap
  | .display, ses | .noDisplay, ses | .cursor, ses | .noCursor, ses | .blink, ses | .noBlink, ses =>
      ses.displayControl.toList.map fun dc => (false, (displayControlCommand ||| dc).toNat)
  | .scrollLeft, _ => [(false, 0x18)]
  | .scrollRight, _ => [(false, 0x1C)]
  | .leftToRight, ses | .rightToLeft, ses | .autoscroll, ses | .noAutoscroll, ses =>
      ses.entryMode.toList.map fun em => (false, (entryModeSetCommand ||| em).toNat)
  | _, _ => []

/-- What a request issues after its protocol units: the long-command wait, or a PWM call. -/
def requestTail : Instr → Session → List Event
  | .clear, _ | .home, _ => [.wait longCommandWait]
  | .enableBacklight intensity, ses => enableBacklightEvents ses.cfg.transport intensity
  | .disableBacklight, ses => disableBacklightEvents ses.cfg.transport
  | _, _ => []

/-- The fixed event list of a request (10_state.md R21). -/
def requestEvents (i : Instr) (ses : Session) : List Event :=
  frames ses.cfg.transport (requestUnits i ses) ++ requestTail i ses

/-- How a request in Ready ends, from its check, its writes and its events. -/
def requestOutcome (i : Instr) (s : State) (ses : Session) : Host.Outcome State Fault Refusal :=
  match requestProblem i ses with
  | some info => .next (s.finish ses s.answers (.err (.invalidArgument info)))
  | none =>
      match requestWrites i ses with
      | none => .next (s.refuse .unwrittenRegister)
      | some ses' => .next (s.attempted ses' (requestEvents i ses'))

/-- A body that issues a fixed list. -/
theorem runReady_emits {s : State} {ses : Session} {check : Session → Option BadArgument} {body : Sequencer → Sequencer}
    {es : List Event} (h : Ready s ses)
    (hb : body (.start ses s.answers) = (Sequencer.start ses s.answers).emit es) :
    runReady s check body =
      match check ses with
      | some info => .next (s.finish ses s.answers (.err (.invalidArgument info)))
      | none => .next (s.attempted ses es) := by
  cases hc : check ses with
  | some info => rw [runReady_rejected h.1 h.2 hc]
  | none => rw [runReady_admitted h.1 h.2 hc, hb, Sequencer.outcome_emit]

/-- A body that updates `display_control`. -/
theorem runReady_updateDisplayControl {s : State} {ses : Session} (h : Ready s ses) (f : Byte → Byte) :
    runReady s noCheck (Sequencer.updateDisplayControl f) =
      match ses.updateDisplayControl f with
      | none => .next (s.refuse .unwrittenRegister)
      | some ses' => .next (s.attempted ses' (frames ses'.cfg.transport
          (ses'.displayControl.toList.map fun dc => (false, (displayControlCommand ||| dc).toNat)) ++ [])) := by
  rw [runReady_admitted h.1 h.2 rfl]
  cases hd : ses.displayControl with
  | some dc => rw [Sequencer.outcome_updateDisplayControl hd]; simp [Session.updateDisplayControl, hd]
  | none =>
    simp [Session.updateDisplayControl, hd, Sequencer.updateDisplayControl, Sequencer.readRegister, Sequencer.start,
      Sequencer.outcome]

/-- A body that updates `entry_mode`. -/
theorem runReady_updateEntryMode {s : State} {ses : Session} (h : Ready s ses) (f : Byte → Byte) :
    runReady s noCheck (Sequencer.updateEntryMode f) =
      match ses.updateEntryMode f with
      | none => .next (s.refuse .unwrittenRegister)
      | some ses' => .next (s.attempted ses' (frames ses'.cfg.transport
          (ses'.entryMode.toList.map fun em => (false, (entryModeSetCommand ||| em).toNat)) ++ [])) := by
  rw [runReady_admitted h.1 h.2 rfl]
  cases hd : ses.entryMode with
  | some em => rw [Sequencer.outcome_updateEntryMode hd]; simp [Session.updateEntryMode, hd]
  | none =>
    simp [Session.updateEntryMode, hd, Sequencer.updateEntryMode, Sequencer.readRegister, Sequencer.start,
      Sequencer.outcome]

/-- What a request in Ready does, in one equation. -/
theorem exec_ready {s : State} {ses : Session} {i : Instr} (hi : i.needsReady = true) (h : Ready s ses) :
    exec i s = requestOutcome i s ses := by
  cases i with
  | clear =>
    change execClear s = _
    rw [execClear, runReady_emits (es := requestEvents .clear ses) h]; · rfl
    exact Sequencer.longCommand_eq _ _
  | home =>
    change execHome s = _
    rw [execHome, runReady_emits (es := requestEvents .home ses) h]; · rfl
    exact Sequencer.longCommand_eq _ _
  | setCursor row col =>
    change execSetCursor row col s = _
    rw [execSetCursor, runReady_emits (es := requestEvents (.setCursor row col) ses) h]; · rfl
    simp [Sequencer.setCursor, Sequencer.command_eq, requestEvents, requestUnits, requestTail]
  | writeText text justify =>
    change execWriteText text justify s = _
    rw [execWriteText, runReady_emits (es := requestEvents (.writeText text justify) ses) h]; · rfl
    simp [Sequencer.writeAllData_eq, requestEvents, requestUnits, requestTail]
  | writeRaw glyph row col =>
    change execWriteRaw glyph row col s = _
    rw [execWriteRaw, runReady_emits (es := requestEvents (.writeRaw glyph row col) ses) h]; · rfl
    simp [Sequencer.setCursor, Sequencer.command_eq, Sequencer.writeData_eq, Sequencer.emit_emit, requestEvents,
      requestUnits, requestTail, ← frames_append]
  | createChar location bitmap =>
    change execCreateChar location bitmap s = _
    rw [execCreateChar, runReady_emits (es := requestEvents (.createChar location bitmap) ses) h]; · rfl
    simp [Sequencer.command_eq, Sequencer.writeAllData_eq, Sequencer.emit_emit, requestEvents, requestUnits, requestTail,
      ← frames_append]
  | scrollLeft =>
    change execScrollLeft s = _
    rw [execScrollLeft, runReady_emits (es := requestEvents .scrollLeft ses) h]; · rfl
    rw [Sequencer.command_eq, show requestEvents .scrollLeft ses = frames _ (requestUnits .scrollLeft ses) from List.append_nil _]
    rfl
  | scrollRight =>
    change execScrollRight s = _
    rw [execScrollRight, runReady_emits (es := requestEvents .scrollRight ses) h]; · rfl
    rw [Sequencer.command_eq, show requestEvents .scrollRight ses = frames _ (requestUnits .scrollRight ses) from List.append_nil _]
    rfl
  | enableBacklight intensity =>
    change execEnableBacklight intensity s = _
    rw [execEnableBacklight, runReady_emits (es := requestEvents (.enableBacklight intensity) ses) h]; · rfl
    simp [requestEvents, requestUnits, requestTail, frames]
  | disableBacklight =>
    change execDisableBacklight s = _
    rw [execDisableBacklight, runReady_emits (es := requestEvents .disableBacklight ses) h]; · rfl
    simp [requestEvents, requestUnits, requestTail, frames]
  | display | noDisplay | cursor | noCursor | blink | noBlink => exact runReady_updateDisplayControl h _
  | leftToRight | rightToLeft | autoscroll | noAutoscroll => exact runReady_updateEntryMode h _
  | _ => cases hi

end Sys2Proof.Machine
end

