-- ==== Sys2Proof/Tests/Slice0.lean ====
section
/-! SUPPORT. The model's own tests: ill-formed terms that WellFormed refuses, words written out from the spec's encodings, the
vectors of spec/95_test_vectors.md (each test names its vector), and for every statement with hypotheses a witness that meets
them. -/

namespace Sys2Proof.Tests

open Sys2Proof Sys2Proof.Machine

/-! ## Small machines -/

/-- I16x2 of 95_test_vectors.md just after construction, with its trace cut to nothing. -/
def i16x2Session : Session where
  phase := .ready
  cfg := ⟨.i2c 0x27, 16, 2, 0⟩
  displayFunction := some 0x08
  displayControl := some 0x04
  entryMode := some 0x02
  claimed := [.bus 0x27]
  ioFault := false
  refused := false
  trace := []

/-- A machine with this session and these answers to come. -/
def machine (ses : Session) (answers : List Answer) : State := ⟨some ses, [], none, [], answers⟩

def i16x2 : State := machine i16x2Session []

/-- The transport of G16x2BL: `PWM_CHANNEL` = 0 and `PWM_RANGE` = 1000 are the vectors' parameter values. -/
def g16x2blTransport : GpioTransport where
  rsPin := 7
  enablePin := 8
  dataPins := ⟨25, 24, 23, 18⟩
  backlightPin := some 12
  rwPin := some 11
  pwmChannel := 0
  pwmRange := 1000

/-- G16x2BL just after construction, with its trace cut to nothing. -/
def g16x2blSession : Session where
  phase := .ready
  cfg := ⟨.gpio g16x2blTransport, 16, 2, 0⟩
  displayFunction := some 0x08
  displayControl := some 0x04
  entryMode := some 0x02
  claimed := [.pin 7, .pin 8, .pin 11, .pin 25, .pin 24, .pin 23, .pin 18, .pwmSub, .pwmChan 0]
  ioFault := false
  refused := false
  trace := []

def g16x2bl : State := machine g16x2blSession []

/-- The state a step ends in, if it goes on. -/
def nextOf : Host.Outcome State Fault Refusal → Option State
  | .next s => some s
  | .fault _ | .refused _ => none

/-- The trace of the current session after a step. -/
def traceOf (o : Host.Outcome State Fault Refusal) : Option (List Event) :=
  (nextOf o).bind fun s => s.session.map Session.trace

/-- The I2C bytes of the trace after a step. -/
def bytesOf (o : Host.Outcome State Fault Refusal) : Option (List Byte) :=
  (traceOf o).map fun es => es.filterMap fun e => match e with
    | .i2cWrite _ b => some b
    | _ => none

/-- The result after a step. -/
def resultAfter (o : Host.Outcome State Fault Refusal) : Option RequestResult := (nextOf o).bind State.result

/-- A field of the session after a step. -/
def sessionAfter (o : Host.Outcome State Fault Refusal) : Option Session := (nextOf o).bind State.session

/-! ## Well-formedness: one ill-formed term for each check -/

theorem test_wf_cursorMove_refused : (Instr.cursorShift false true).wellFormed = false := by decide
theorem test_wf_eightBit_refused : (Instr.functionSet true false false).wellFormed = false := by decide
theorem test_wf_twoLines_tallDots_refused : (Instr.functionSet false true true).wellFormed = false := by decide
theorem test_wf_cgram_off_slot_refused : (Instr.setCgramAddr 0x09).wellFormed = false := by decide
theorem test_wf_ddram_unreachable_refused : (Instr.setDdramAddr 0x7C).wellFormed = false := by decide
theorem test_wf_largest_ddram_accepted : (Instr.setDdramAddr 0x7B).wellFormed = true := by decide

/-! ## Decoding: a word of every constructor, from 30_encoding.md R74, R84, R85, R95 -/

theorem test_decode_clearDisplay : decode (.wire 0b0_0000_0001) = .ok .clearDisplay := by decide
theorem test_decode_returnHome : decode (.wire 0b0_0000_0010) = .ok .returnHome := by decide
/-- The don't-care bit of RETURN_HOME (R76, R92). -/
theorem test_decode_returnHome_dont_care : decode (.wire 0b0_0000_0011) = .ok .returnHome := by decide
theorem test_decode_entryModeSet : decode (.wire 0b0_0000_0110) = .ok (.entryModeSet true false) := by decide
theorem test_decode_displayControl : decode (.wire 0b0_0000_1110) = .ok (.displayControl true true false) := by decide
theorem test_decode_cursorShift : decode (.wire 0b0_0001_1000) = .ok (.cursorShift true false) := by decide
theorem test_decode_functionSet : decode (.wire 0b0_0010_0100) = .ok (.functionSet false false true) := by decide
theorem test_decode_setCgramAddr : decode (.wire 0b0_0111_1000) = .ok (.setCgramAddr 0b111000) := by decide
theorem test_decode_setDdramAddr : decode (.wire 0b0_1100_0101) = .ok (.setDdramAddr 0b1000101) := by decide
theorem test_decode_dataWrite : decode (.wire 0b1_0100_1000) = .ok (.dataWrite 0b01001000) := by decide
theorem test_decode_handshakeNibble3 : decode (.nibble 0b0_0011) = .ok .handshakeNibble3 := by decide
theorem test_decode_handshakeNibble2 : decode (.nibble 0b0_0010) = .ok .handshakeNibble2 := by decide
theorem test_decode_constructGpio :
    decode (.request 0b00000 [.nat 7, .nat 8, .list [25, 24, 23, 18], .optPin (some 12), .optPin (some 11), .nat 20, .nat 4,
      .nat 1]) = .ok (.constructGpio 7 8 [25, 24, 23, 18] (some 12) (some 11) 20 4 1) := by decide
/-- Defaults of R97 and 44_session.md R280: the pins absent, 16 columns, 1 line, dot size 0. -/
theorem test_decode_constructGpio_defaults :
    decode (.request 0b00000 [.nat 7, .nat 8, .list [25, 24, 23, 18]])
      = .ok (.constructGpio 7 8 [25, 24, 23, 18] none none 16 1 0) := by decide
theorem test_decode_constructI2c : decode (.request 0b00001 [.nat 0x27, .nat 20, .nat 4]) = .ok (.constructI2c 0x27 20 4 0) := by
  decide
/-- The examples of 44_session.md R281 and R280: `I2C(0x27, lines=2)` and `GPIO(7, 8, [25,24,23,18], columns=16, lines=2)`. -/
theorem test_decode_constructI2c_named_lines :
    decode (.request 0b00001 [.nat 0x27, .keyword .lines 2]) = .ok (.constructI2c 0x27 16 2 0) := by decide
theorem test_decode_constructGpio_named_geometry :
    decode (.request 0b00000 [.nat 7, .nat 8, .list [25, 24, 23, 18], .keyword .columns 16, .keyword .lines 2])
      = .ok (.constructGpio 7 8 [25, 24, 23, 18] none none 16 2 0) := by decide
theorem test_decode_clear : decode (.request 0b00010 []) = .ok .clear := by decide
theorem test_decode_home : decode (.request 0b00011 []) = .ok .home := by decide
theorem test_decode_setCursor : decode (.request 0b00100 [.nat 1, .nat 5]) = .ok (.setCursor 1 5) := by decide
theorem test_decode_writeText : decode (.request 0b00101 [.list [0x48], .nat 1]) = .ok (.writeText [0x48] .right) := by decide
theorem test_decode_writeRaw : decode (.request 0b00110 [.nat 1, .nat 0, .nat 15]) = .ok (.writeRaw 1 0 15) := by decide
theorem test_decode_createChar : decode (.request 0b00111 [.nat 9, .list [1, 2]]) = .ok (.createChar 9 [1, 2]) := by decide
theorem test_decode_display : decode (.request 0b01000 []) = .ok .display := by decide
theorem test_decode_noDisplay : decode (.request 0b01001 []) = .ok .noDisplay := by decide
theorem test_decode_cursor : decode (.request 0b01010 []) = .ok .cursor := by decide
theorem test_decode_noCursor : decode (.request 0b01011 []) = .ok .noCursor := by decide
theorem test_decode_blink : decode (.request 0b01100 []) = .ok .blink := by decide
theorem test_decode_noBlink : decode (.request 0b01101 []) = .ok .noBlink := by decide
theorem test_decode_scrollLeft : decode (.request 0b01110 []) = .ok .scrollLeft := by decide
theorem test_decode_scrollRight : decode (.request 0b01111 []) = .ok .scrollRight := by decide
theorem test_decode_leftToRight : decode (.request 0b10000 []) = .ok .leftToRight := by decide
theorem test_decode_rightToLeft : decode (.request 0b10001 []) = .ok .rightToLeft := by decide
theorem test_decode_autoscroll : decode (.request 0b10010 []) = .ok .autoscroll := by decide
theorem test_decode_noAutoscroll : decode (.request 0b10011 []) = .ok .noAutoscroll := by decide
theorem test_decode_enableBacklight : decode (.request 0b10100 [.int (-5)]) = .ok (.enableBacklight (-5)) := by decide
theorem test_decode_disableBacklight : decode (.request 0b10101 []) = .ok .disableBacklight := by decide
theorem test_decode_cleanup : decode (.request 0b10110 []) = .ok .cleanup := by decide
theorem test_decode_reservedRequest17 : decode (.request 0b10111 []) = .ok .reservedRequest17 := by decide
theorem test_decode_reservedRequest18 : decode (.request 0b11101 []) = .ok (.reservedRequest18 0b101) := by decide

/-! ## Units that are no instruction, each by its name -/

theorem test_decode_zero_byte : decode (.wire 0b0_0000_0000) = .error .noSuchCommand := by decide
theorem test_decode_wire_too_wide : decode (.wire 0x200) = .error .wordTooWide := by decide
theorem test_decode_other_nibble : decode (.nibble 0b0_0100) = .error .noSuchNibble := by decide
theorem test_decode_request_too_wide : decode (.request 0x20 []) = .error .wordTooWide := by decide
/-- An argument named twice, or before its turn in the source's order (30_encoding.md R97), is no request. -/
theorem test_decode_repeated_argument :
    decode (.request 0x01 [.nat 0x27, .keyword .lines 2, .keyword .lines 2]) = .error .operandShape := by decide
theorem test_decode_argument_out_of_order :
    decode (.request 0x01 [.nat 0x27, .keyword .lines 2, .keyword .columns 16]) = .error .operandShape := by decide
theorem test_decode_missing_operand : decode (.request 0x04 [.nat 1]) = .error .operandShape := by decide
theorem test_decode_justify_three : decode (.request 0x05 [.list [], .nat 3]) = .error .noSuchJustify := by decide
theorem test_malformed_unit_stops : step (i16x2.withUnit (.wire 0)) = .refused (.malformedUnit .noSuchCommand) := by rfl

/-! ## Words as the opcode table numbers them -/

theorem test_table_word_wire : decodeTableWord 16 0x148 = some (.dataWrite 0x48) := by decide
theorem test_table_word_request : decodeTableWord 8 0x0A = some .cursor := by decide
theorem test_table_word_is_fetched : step (i16x2.withFetchWord 8 0x0A) = exec .cursor i16x2 := by rfl

/-! ## Encoding vectors -/

/-- V-ENC-1, V-ENC-2, V-ENC-3. -/
theorem test_expander_bytes :
    [expanderByte true 0x4 true, expanderByte true 0x4 false, expanderByte false 0x0 true, expanderByte false 0x0 false,
      expanderByte true 0xF true, expanderByte true 0xF false] = [0x4D, 0x49, 0x0C, 0x08, 0xFD, 0xF9] := by decide
/-- V-ENC-8. -/
theorem test_glyph_slots : (List.range 8).map glyphSlotValue = [0x40, 0x48, 0x50, 0x58, 0x60, 0x68, 0x70, 0x78] := by decide
/-- V-ENC-9, V-ENC-10. -/
theorem test_ddram_commands : [setCursorValue 4 2 19, setCursorValue 4 3 39] = [0xA7, 0xFB] := by decide
/-- V-INIT-DF. -/
theorem test_display_function :
    [initialDisplayFunction 1 0, initialDisplayFunction 1 1, initialDisplayFunction 2 0, initialDisplayFunction 2 1,
      initialDisplayFunction 4 0] = [0x00, 0x04, 0x08, 0x08, 0x08] := by decide
/-- V-TR-BL: 33 percent of 1000 and of 1024, and the two caps. -/
theorem test_pulse_widths :
    [pulseWidth 1000 (-5), pulseWidth 1000 33, pulseWidth 1000 150, pulseWidth 1024 33] = [0, 330, 1000, 337] := by decide
/-- V-JUST-CENTER-HI and V-OP-TXT-CENTER: the odd space goes to the right. -/
theorem test_justify_center :
    justifyText [0x61, 0x62, 0x63] 16 .center = spaces 6 ++ [0x61, 0x62, 0x63] ++ spaces 7 := by decide
/-- V-OP-TXT-TRUNC, on 2 columns. -/
theorem test_justify_truncates : justifyText [0x41, 0x42, 0x43] 2 .right = [0x41, 0x42] := by decide

/-! ## Wire rows -/

/-- V-FR-4. -/
theorem test_clearDisplay : traceOf (exec .clearDisplay i16x2) = some
    [.i2cWrite 0x27 0x0C, .wait 5, .i2cWrite 0x27 0x08, .wait 100, .i2cWrite 0x27 0x1C, .wait 5, .i2cWrite 0x27 0x18,
      .wait 100, .wait 2000] := by decide
/-- V-FR-5. -/
theorem test_returnHome : bytesOf (exec .returnHome i16x2) = some [0x0C, 0x08, 0x2C, 0x28] := by decide
/-- V-INIT-I2C, the last line. -/
theorem test_entryModeSet : bytesOf (exec (.entryModeSet true false) i16x2) = some [0x0C, 0x08, 0x6C, 0x68] := by decide
/-- V-INIT-I2C, DISPLAY_CONTROL. -/
theorem test_displayControl : bytesOf (exec (.displayControl true false false) i16x2) = some [0x0C, 0x08, 0xCC, 0xC8] := by
  decide
/-- V-OP-SR. -/
theorem test_cursorShift : bytesOf (exec (.cursorShift true true) i16x2) = some [0x1C, 0x18, 0xCC, 0xC8] := by decide
/-- V-INIT-DF, lines 1, dot size 1. -/
theorem test_functionSet : bytesOf (exec (.functionSet false false true) i16x2) = some [0x2C, 0x28, 0x4C, 0x48] := by decide
/-- P2, the first command. -/
theorem test_setCgramAddr : bytesOf (exec (.setCgramAddr 0x08) i16x2) = some [0x4C, 0x48, 0x8C, 0x88] := by decide
/-- V-SRC-CURSOR. -/
theorem test_setDdramAddr : bytesOf (exec (.setDdramAddr 0x45) i16x2) = some [0xCC, 0xC8, 0x5C, 0x58] := by decide
/-- V-FR-1. -/
theorem test_dataWrite : bytesOf (exec (.dataWrite 0x48) i16x2) = some [0x4D, 0x49, 0x8D, 0x89] := by decide
/-- V-FR-7: the third write fails. -/
theorem test_dataWrite_fails : traceOf (exec (.dataWrite 0x48) (machine i16x2Session [.ok, .ok, .fail])) = some
    [.i2cWrite 0x27 0x4D, .wait 5, .i2cWrite 0x27 0x49, .wait 100, .i2cWrite 0x27 0x8D] := by decide
/-- V-TR-NIB-GPIO. -/
theorem test_handshakeNibble3 : traceOf (exec .handshakeNibble3 g16x2bl) = some
    [.pin 7 false, .pin 25 true, .pin 24 true, .pin 23 false, .pin 18 false, .pin 8 false, .wait 1, .pin 8 true, .wait 1,
      .pin 8 false, .wait 100] := by decide
/-- V-ENC-12. -/
theorem test_handshakeNibble2 : bytesOf (exec .handshakeNibble2 i16x2) = some [0x2C, 0x28] := by decide

/-! ## Construction -/

/-- V-INIT-GPIO: the claims, `begin`, and the first handshake nibble (V-TR-NIB-GPIO). -/
theorem test_constructGpio : (traceOf (exec (.constructGpio 7 8 [25, 24, 23, 18] none none 16 2 0) .reset)).map (List.take 20) =
    some [.pinOut 7, .pinOut 8, .pinOut 25, .pinOut 24, .pinOut 23, .pinOut 18, .wait 50000, .pin 7 false, .pin 8 false,
      .pin 7 false, .pin 25 true, .pin 24 true, .pin 23 false, .pin 18 false, .pin 8 false, .wait 1, .pin 8 true, .wait 1,
      .pin 8 false, .wait 100] := by decide
/-- V-INIT-FAIL-CLAIM: `PinOut(23)` fails. -/
theorem test_constructGpio_claim_fails :
    let o := exec (.constructGpio 7 8 [25, 24, 23, 18] none none 16 1 0) { State.reset with answers := [.ok, .ok, .ok, .ok, .fail] }
    resultAfter o = some (.err (.resourceUnavailable (.pinOut 23))) ∧
      (sessionAfter o).map Session.claimed = some [.pin 7, .pin 8, .pin 25, .pin 24] ∧
      (sessionAfter o).map Session.phase = some .failed := by decide
/-- V-INIT-I2C: the 24 bytes. -/
theorem test_constructI2c : bytesOf (exec (.constructI2c 0x27 16 2 0) .reset) = some
    [0x3C, 0x38, 0x3C, 0x38, 0x3C, 0x38, 0x2C, 0x28, 0x2C, 0x28, 0x8C, 0x88, 0x0C, 0x08, 0xCC, 0xC8, 0x0C, 0x08, 0x1C, 0x18,
      0x0C, 0x08, 0x6C, 0x68] := by decide
/-- V-INIT-FAIL-IO: the seventeenth write fails (the open is the first call). -/
theorem test_constructI2c_write_fails :
    let o := exec (.constructI2c 0x27 16 1 0) { State.reset with answers := List.replicate 17 .ok ++ [.fail] }
    resultAfter o = some (.err (.ioFailure (.i2cWrite 0x27 0x0C))) ∧
      (sessionAfter o).map Session.displayControl = some (some 0x04) ∧ (sessionAfter o).map Session.entryMode = some none ∧
      (sessionAfter o).map Session.ioFault = some true := by decide

/-! ## Public operations -/

/-- V-OP-CLEAR. -/
theorem test_clear : traceOf (exec .clear i16x2) = traceOf (exec .clearDisplay i16x2) := by decide
/-- V-OP-HOME. -/
theorem test_home : bytesOf (exec .home i16x2) = some [0x0C, 0x08, 0x2C, 0x28] := by decide
/-- V-OP-CUR-CLAMP: C(0xC3). -/
theorem test_setCursor_clamps : bytesOf (exec (.setCursor 5 3) i16x2) = some [0xCC, 0xC8, 0x3C, 0x38] := by decide
/-- V-OP-CUR-COL. -/
theorem test_setCursor_column : resultAfter (exec (.setCursor 0 16) i16x2) = some (.err (.invalidArgument (.col 16))) ∧
    traceOf (exec (.setCursor 0 16) i16x2) = some [] := by decide
/-- P4 request 3: the fourth write fails. -/
theorem test_writeText_fails :
    let o := exec (.writeText [0x48, 0x69] .left) (machine i16x2Session [.ok, .ok, .ok, .fail])
    bytesOf o = some [0x4D, 0x49, 0x8D, 0x89] ∧ resultAfter o = some (.err (.ioFailure (.i2cWrite 0x27 0x89))) := by decide
/-- V-OP-TXT-BIG: code 0x141 is sent as 0x41. -/
theorem test_writeText_truncates_codes :
    (bytesOf (exec (.writeText [0x141] .left) i16x2)).map (List.take 8) =
      some [0x4D, 0x49, 0x1D, 0x19, 0x2D, 0x29, 0x0D, 0x09] := by decide
/-- P2 request 2. -/
theorem test_writeRaw : bytesOf (exec (.writeRaw 1 0 15) i16x2) = some [0x8C, 0x88, 0xFC, 0xF8, 0x0D, 0x09, 0x1D, 0x19] := by
  decide
/-- V-OP-RAW-COL. -/
theorem test_writeRaw_column : resultAfter (exec (.writeRaw 1 0 16) i16x2) = some (.err (.invalidArgument (.col 16))) := by decide
/-- P2 request 1: the location 9 is masked to 1. -/
theorem test_createChar :
    (bytesOf (exec (.createChar 9 [0x00, 0x0A, 0x1F, 0x1F, 0x0E, 0x04, 0x00, 0x00]) i16x2)).map (List.take 12) =
      some [0x4C, 0x48, 0x8C, 0x88, 0x0D, 0x09, 0x0D, 0x09, 0x0D, 0x09, 0xAD, 0xA9] := by decide
/-- V-OP-CC-LEN. -/
theorem test_createChar_length : resultAfter (exec (.createChar 0 [1, 2, 3, 4, 5, 6, 7]) i16x2)
    = some (.err (.invalidArgument (.bitmap [1, 2, 3, 4, 5, 6, 7]))) := by decide

/-- I16x2 with `display_control` 0x07, as P3 reaches it. -/
def allOn : State := machine { i16x2Session with displayControl := some 0x07 } []

/-- V-OP-DISP. -/
theorem test_display : bytesOf (exec .display i16x2) = some [0x0C, 0x08, 0xCC, 0xC8] := by decide
/-- The example of R221: 0x07 gives 0x03. -/
theorem test_noDisplay : (sessionAfter (exec .noDisplay allOn)).bind Session.displayControl = some 0x03 ∧
    bytesOf (exec .noDisplay allOn) = some [0x0C, 0x08, 0xBC, 0xB8] := by decide
/-- V-OP-IOFAIL: the register keeps its new value. -/
theorem test_cursor_fails :
    let o := exec .cursor (machine i16x2Session [.fail])
    (sessionAfter o).bind Session.displayControl = some 0x06 ∧ (sessionAfter o).map Session.ioFault = some true ∧
      traceOf o = some [.i2cWrite 0x27 0x0C] := by decide
/-- V-OP-NOCURS. -/
theorem test_noCursor : (sessionAfter (exec .noCursor i16x2)).bind Session.displayControl = some 0x04 := by decide
/-- V-OP-BLINK. -/
theorem test_blink : (sessionAfter (exec .blink i16x2)).bind Session.displayControl = some 0x05 := by decide
/-- V-OP-NOBLINK. -/
theorem test_noBlink : (sessionAfter (exec .noBlink allOn)).bind Session.displayControl = some 0x06 := by decide
/-- V-OP-SL. -/
theorem test_scrollLeft : bytesOf (exec .scrollLeft i16x2) = some [0x1C, 0x18, 0x8C, 0x88] := by decide
/-- V-OP-SR. -/
theorem test_scrollRight : bytesOf (exec .scrollRight i16x2) = some [0x1C, 0x18, 0xCC, 0xC8] := by decide
/-- V-OP-LTR. -/
theorem test_leftToRight : bytesOf (exec .leftToRight i16x2) = some [0x0C, 0x08, 0x6C, 0x68] := by decide
/-- V-OP-RTL. -/
theorem test_rightToLeft : (sessionAfter (exec .rightToLeft i16x2)).bind Session.entryMode = some 0x00 ∧
    bytesOf (exec .rightToLeft i16x2) = some [0x0C, 0x08, 0x4C, 0x48] := by decide
/-- V-OP-AS. -/
theorem test_autoscroll : (sessionAfter (exec .autoscroll i16x2)).bind Session.entryMode = some 0x03 := by decide
/-- V-OP-NOAS. -/
theorem test_noAutoscroll : (sessionAfter (exec .noAutoscroll i16x2)).bind Session.entryMode = some 0x02 := by decide

/-! ## Backlight, cleanup, refusals -/

/-- V-TR-BL. -/
theorem test_enableBacklight : traceOf (exec (.enableBacklight 50) g16x2bl) = some [.pwmWidth 0 12 500] := by decide
/-- V-SES-BL. -/
theorem test_enableBacklight_i2c : traceOf (exec (.enableBacklight 10) i16x2) = some [] := by decide
/-- V-TR-BL. -/
theorem test_disableBacklight : traceOf (exec .disableBacklight g16x2bl) = some [.pwmClear 0 12] := by decide
/-- V-TR-REL-FAIL: `PinRelease(24)` fails, and all nine are issued. -/
theorem test_cleanup_fails :
    let o := exec .cleanup (machine g16x2blSession [.ok, .ok, .ok, .ok, .fail])
    traceOf o = some [.pwmClear 0 12, .pwmTeardown, .pinRelease 18, .pinRelease 23, .pinRelease 24, .pinRelease 25,
      .pinRelease 11, .pinRelease 8, .pinRelease 7] ∧ resultAfter o = some (.err (.ioFailure (.pinRelease 24))) ∧
      (sessionAfter o).map Session.claimed = some [] ∧ (sessionAfter o).map Session.ioFault = some true := by decide

/-- I16x2 after `cleanup()`. -/
def released : State := machine { i16x2Session with phase := .released, claimed := [] } []

/-- V-SES-CLEANUP: a second `cleanup()`. -/
theorem test_cleanup_again : exec .cleanup released = .next { released with result := some .ok } := by rfl
/-- V-EX-PRIO. -/
theorem test_refusal_before_arguments : resultAfter (exec (.createChar 9 []) released) = some (.refused .notReady) := by decide
/-- V-ENC-11. -/
theorem test_reservedRequest17 : resultAfter (exec .reservedRequest17 i16x2) = some (.refused .reservedOpcode) ∧
    (sessionAfter (exec .reservedRequest17 i16x2)).map Session.refused = some true := by decide
theorem test_reservedRequest18 : resultAfter (exec (.reservedRequest18 0) i16x2) = some (.refused .reservedOpcode) ∧
    traceOf (exec (.reservedRequest18 0) i16x2) = some [] := by decide

/-! ## Witnesses: for each statement with hypotheses, a state and operands that meet all of them -/

theorem i16x2_ready : Ready i16x2 i16x2Session := ⟨rfl, rfl⟩
theorem g16x2bl_ready : Ready g16x2bl g16x2blSession := ⟨rfl, rfl⟩
theorem i16x2_live : Live i16x2 i16x2Session := ⟨rfl, rfl⟩
theorem i16x2_no_call_fails : NoCallFails i16x2 := by decide
theorem g16x2bl_no_call_fails : NoCallFails g16x2bl := by decide
theorem i2c_legal : (Transport.i2c 0x27).Legal := trivial
theorem g16x2bl_transport_legal : (Transport.gpio g16x2blTransport).Legal := ⟨by decide, by decide⟩

/-- The largest geometry validation admits. -/
theorem largest_config_legal : SessionConfig.Legal ⟨.i2c 0x27, 40, 4, 0⟩ := ⟨trivial, by decide, by decide⟩

theorem i16x2Session_legal : i16x2Session.Legal where
  cfg := ⟨trivial, by decide, by decide⟩
  phase := .inl rfl
  displayFunction := by decide
  displayControl dc h := by cases h; decide
  entryMode em h := by cases h; decide
  written _ := ⟨rfl, rfl⟩
  claimedReady _ := rfl
  claimedFailed h := by cases h
  claimedReleased h := by cases h

theorem g16x2blSession_legal : g16x2blSession.Legal where
  cfg := ⟨g16x2bl_transport_legal, by decide, by decide⟩
  phase := .inl rfl
  displayFunction := by decide
  displayControl dc h := by cases h; decide
  entryMode em h := by cases h; decide
  written _ := ⟨rfl, rfl⟩
  claimedReady _ := rfl
  claimedFailed h := by cases h
  claimedReleased h := by cases h

theorem i16x2_legal : i16x2.Legal := ⟨fun _ h => by cases h; exact i16x2Session_legal, by simp [i16x2, machine]⟩
theorem g16x2bl_legal : g16x2bl.Legal := ⟨fun _ h => by cases h; exact g16x2blSession_legal, by simp [g16x2bl, machine]⟩

/-- I16x2 with a pending `cleanup()`. -/
def cleaning : State := i16x2.withUnit (.request 0x16 [])

theorem cleaning_legal : cleaning.Legal := ⟨i16x2_legal.current, i16x2_legal.earlier⟩

/-- What I16x2 is after `cleanup()`. -/
def cleaned : State :=
  ⟨some { i16x2Session with phase := .released, claimed := [], trace := [.i2cClose 0x27] }, [], some .ok, [], []⟩

theorem cleaning_step : step cleaning = .next cleaned := by rfl

theorem witness_StepRunsDecodedInstruction :
    cleaning.pending = [.request 0x16 []] ∧ decode (.request 0x16 []) = .ok .cleanup := ⟨rfl, rfl⟩
theorem witness_StepIdlesOrRejectsByName : i16x2.pending = [] ∧
    (i16x2.withUnit (.nibble 0x1F)).pending = [.nibble 0x1F] ∧ decode (.nibble 0x1F) = .error .noSuchNibble :=
  ⟨rfl, rfl, rfl⟩
theorem witness_WireWordsSelectedByHighestBit : 2 ^ 9 ≤ 512 ∧ 0 < 1 ∧ 1 < 2 ^ 9 ∧ 0 < 511 ∧ 511 < 2 ^ 9 := by decide
theorem witness_ReservedOpcodesDecode : 0 < 8 ∧ 7 < 8 ∧ 32 ≤ 32 := by decide
theorem witness_AttemptEndsWithFailingCall : (Event.i2cWrite 0x27 0x0C).canFail = true := rfl
theorem witness_FramingIndependentOfTransport :
    (Transport.gpio g16x2blTransport).Legal ∧ (Transport.i2c 0x27).Legal ∧ Lines.rest.enable = false :=
  ⟨g16x2bl_transport_legal, trivial, rfl⟩
theorem witness_ClearAndHomeSendThenWait : Ready i16x2 i16x2Session := i16x2_ready
theorem witness_SetCursorSendsAddress : Ready i16x2 i16x2Session ∧ i16x2Session.cfg.numLines ≤ 4 ∧
    0 < i16x2Session.cfg.columns ∧ 15 < i16x2Session.cfg.columns ∧ i16x2Session.cfg.columns ≤ 16 :=
  ⟨i16x2_ready, by decide⟩
theorem witness_DdramAddressFitsSevenBits : SessionConfig.Legal ⟨.i2c 0x27, 40, 4, 0⟩ ∧ 39 < 40 :=
  ⟨largest_config_legal, by decide⟩
theorem witness_JustifyLaysOutText : 2 ≤ [0x48, 0x69].length ∧ [0x48, 0x69].length < 3 := by decide
theorem witness_WriteTextSendsLayout : Ready g16x2bl g16x2blSession := g16x2bl_ready
theorem witness_WriteRawSendsAddressThenGlyph : Ready g16x2bl g16x2blSession ∧ g16x2blSession.cfg.numLines ≤ 4 ∧
    15 < g16x2blSession.cfg.columns ∧ g16x2blSession.cfg.columns ≤ 16 := ⟨g16x2bl_ready, by decide⟩
theorem witness_CreateCharSendsSlotThenRows : Ready i16x2 i16x2Session ∧ [1, 2, 3, 4, 5, 6, 7, 8].length = 8 ∧
    [1, 2, 3, 4, 5, 6, 7].length ≠ 8 := ⟨i16x2_ready, by decide⟩
theorem witness_DisplayTogglesWriteAndResend : Ready i16x2 i16x2Session ∧ i16x2Session.displayControl = some 0x04 :=
  ⟨i16x2_ready, rfl⟩
theorem witness_EntryModeOperationsWriteAndResend : Ready i16x2 i16x2Session ∧ i16x2Session.entryMode = some 0x02 :=
  ⟨i16x2_ready, rfl⟩
theorem witness_ScrollsSendCursorShift : Ready i16x2 i16x2Session := i16x2_ready
theorem witness_DisplayTwiceResendsTwice :
    Ready i16x2 i16x2Session ∧ i16x2Session.displayControl = some 0x04 ∧ NoCallFails i16x2 :=
  ⟨i16x2_ready, rfl, i16x2_no_call_fails⟩
theorem witness_WireRowsAreSent : Live i16x2 i16x2Session ∧ (Instr.dataWrite 0xFF).isWireUnit = true := ⟨i16x2_live, rfl⟩
theorem witness_HandshakeNibblesOnI2c : Live i16x2 i16x2Session ∧ i16x2Session.cfg.transport = .i2c 0x27 := ⟨i16x2_live, rfl⟩

/-- One set of arguments at the boundary for each clause of the validation. -/
theorem witness_ConstructionIsValidatedFirst :
    [1, 2, 3, 4, 5, 6, 9, 10].length = 8 ∧
      ([1, 2, 3].length ≠ 8 ∧ [1, 2, 3].length ≠ 4 ∧ [1, 2, 3, 4, 5].length ≠ 8 ∧ [1, 2, 3, 4, 5].length ≠ 4) ∧
      ([7, 24, 23, 18].length = 4 ∧ ¬ (7 :: 8 :: [7, 24, 23, 18] ++ (none : Option Nat).toList ++ (none : Option Nat).toList).Nodup) ∧
      ([25, 24, 23, 18].length = 4 ∧
        (7 :: 8 :: [25, 24, 23, 18] ++ (some 12).toList ++ (some 11).toList).Nodup) ∧
      ((0 < 1 ∨ 0 > 40) ∧ (41 < 1 ∨ 41 > 40)) ∧
      (¬ (1 < 1 ∨ 1 > 40) ∧ ¬ (40 < 1 ∨ 40 > 40) ∧ (0 < 1 ∨ 0 > 4) ∧ (5 < 1 ∨ 5 > 4)) := by decide

/-- The smallest and the largest geometry, and pins that are distinct. -/
theorem witness_ConstructionFollowsFixedList :
    (1 ≤ 1 ∧ 1 ≤ 40 ∧ 1 ≤ 1 ∧ 1 ≤ 4) ∧ (1 ≤ 40 ∧ 40 ≤ 40 ∧ 1 ≤ 4 ∧ 4 ≤ 4) ∧
      (7 :: 8 :: [25, 24, 23, 18] ++ (some 12).toList ++ (some 11).toList).Nodup := by decide
theorem witness_I2cConstructionByteByByte : (1 ≤ 40 ∧ 40 ≤ 40 ∧ 1 ≤ 4 ∧ 4 ≤ 4) ∧ NoCallFails .reset := by decide
theorem witness_GpioConstructionInOrder : (1 ≤ 16 ∧ 16 ≤ 40 ∧ 1 ≤ 2 ∧ 2 ≤ 4) ∧
    (7 :: 8 :: [25, 24, 23, 18] ++ (some 12).toList ++ (some 11).toList).Nodup ∧ NoCallFails .reset := by decide

/-- The first and the last of the seven pin claims. -/
theorem witness_FailedClaimKeepsEarlierClaims : (1 ≤ 16 ∧ 16 ≤ 40 ∧ 1 ≤ 1 ∧ 1 ≤ 4) ∧
    (7 :: 8 :: [25, 24, 23, 18] ++ (none : Option Nat).toList ++ (some 11).toList).Nodup ∧
    0 < ([7, 8] ++ (some 11).toList ++ [25, 24, 23, 18]).length ∧ 6 < ([7, 8] ++ (some 11).toList ++ [25, 24, 23, 18]).length ∧
    ({ State.reset with answers := [.fail] } : State).answers = List.replicate 0 Answer.ok ++ Answer.fail :: [] ∧
    ({ State.reset with answers := List.replicate 6 .ok ++ [.fail] } : State).answers =
      List.replicate 6 Answer.ok ++ Answer.fail :: [] := by decide
theorem witness_DisplayFunctionByLinesAndDots : (1 : Nat) ≠ 0 ∧ 1 < 2 := by decide

/-- The machine after `I2C(0x27, lines=2)`. -/
def constructed : State := State.reset.constructed (i2cConfig 0x27 16 2 0)

theorem constructed_by : exec (.constructI2c 0x27 16 2 0) .reset = .next constructed := by rfl
theorem witness_InitializationUnitsOnTheWires : (Instr.constructI2c 0x27 16 2 0).isConstruct = true ∧
    exec (.constructI2c 0x27 16 2 0) .reset = .next constructed ∧ constructed.result = some .ok ∧
    constructed.session = some (constructedSession (i2cConfig 0x27 16 2 0) []) := ⟨rfl, constructed_by, by decide, rfl⟩
theorem witness_InitializationTakesItsMinimumTime : (Instr.constructI2c 0x27 16 2 0).isConstruct = true ∧
    exec (.constructI2c 0x27 16 2 0) .reset = .next constructed ∧ constructed.result = some .ok ∧
    constructed.session = some (constructedSession (i2cConfig 0x27 16 2 0) []) := witness_InitializationUnitsOnTheWires
/-- A GPIO session without a backlight pin. -/
def g16x2Session : Session :=
  { g16x2blSession with
    cfg := ⟨.gpio { g16x2blTransport with backlightPin := none, rwPin := none }, 16, 2, 0⟩
    claimed := [.pin 7, .pin 8, .pin 25, .pin 24, .pin 23, .pin 18] }

theorem witness_BacklightDrivesPwm :
    (Ready g16x2bl g16x2blSession ∧ g16x2blSession.cfg.transport = .gpio g16x2blTransport ∧
      g16x2blTransport.backlightPin = some 12) ∧
      Ready (machine g16x2Session []) g16x2Session ∧
      ∃ g, g16x2Session.cfg.transport = .gpio g ∧ g.backlightPin = none :=
  ⟨⟨g16x2bl_ready, rfl, rfl⟩, ⟨rfl, rfl⟩, _, rfl, rfl⟩

theorem witness_BacklightElsewhereDoesNothing :
    (Ready i16x2 i16x2Session ∧ ∃ a, i16x2Session.cfg.transport = .i2c a) ∧
      Ready (machine g16x2Session []) g16x2Session ∧
      ∃ g, g16x2Session.cfg.transport = .gpio g ∧ g.backlightPin = none :=
  ⟨⟨i16x2_ready, _, rfl⟩, ⟨rfl, rfl⟩, _, rfl, rfl⟩

/-- I16x2 whose construction failed at a write. -/
def failedSession : Session := { i16x2Session with phase := .failed, ioFault := true, displayControl := none, entryMode := none }

theorem witness_CleanupReleasesInReverse : i16x2.session = some i16x2Session ∧ i16x2Session.phase = .ready ∧
    failedSession.phase = .failed ∧ ∃ ses, released.session = some ses ∧ ses.phase = .released :=
  ⟨rfl, rfl, rfl, _, rfl, rfl⟩
theorem witness_CleanupReportsFirstFailure :
    (machine g16x2blSession [.ok, .fail, .ok]).session = some g16x2blSession ∧ g16x2blSession.phase = .ready ∧
      1 < (g16x2blSession.claimed.reverse.map (releaseEvent g16x2blSession.cfg.transport)).length ∧
      (machine g16x2blSession [.ok, .fail, .ok]).answers = List.replicate 1 .ok ++ .fail :: [.ok] := ⟨rfl, rfl, by decide, rfl⟩
theorem witness_ReleaseCallsByResource : g16x2blTransport.backlightPin = some 12 := rfl
theorem witness_OperationsOutsideReadyAreRefused : Instr.clear.needsReady = true ∧
    (machine failedSession []).session = some failedSession ∧ failedSession.phase ≠ .ready ∧ State.reset.session = none :=
  ⟨rfl, rfl, by decide, rfl⟩

/-- A session whose construction is under way, which only the rows of the wire level meet (log entry 1). -/
def handshakeSession : Session := { i16x2Session with phase := .handshakeIn4BitMode, displayControl := none, entryMode := none }

theorem witness_CleanupAndWireRowsElsewhereAreRefused : (machine handshakeSession []).session = some handshakeSession ∧
    handshakeSession.phase = .handshakeIn4BitMode ∧ failedSession.phase.isLive = false ∧
    Instr.clearDisplay.isWireUnit = true ∧ State.reset.session = none := ⟨rfl, rfl, rfl, rfl, rfl⟩
/-- 10_state.md R28, 60_exceptions.md R310: no event, the mark set, the register still without a value. -/
theorem test_unwritten_register_refused :
    let o := exec .display (machine { i16x2Session with displayControl := none } [])
    resultAfter o = some (.refused .unwrittenRegister) ∧
      sessionAfter o = some { i16x2Session with displayControl := none, refused := true } := by decide
theorem witness_UnwrittenRegisterIsRefused :
    Ready (machine { i16x2Session with displayControl := none, entryMode := none } [])
        { i16x2Session with displayControl := none, entryMode := none } ∧
      ({ i16x2Session with displayControl := none, entryMode := none } : Session).displayControl = none ∧
      ({ i16x2Session with displayControl := none, entryMode := none } : Session).entryMode = none :=
  ⟨⟨rfl, rfl⟩, rfl, rfl⟩
theorem witness_EveryRequestIsAnswered : i16x2.Legal := i16x2_legal

/-- What I16x2 is after `cursor()` when its first write fails (V-OP-IOFAIL). -/
def cursorFailed : State :=
  ⟨some { i16x2Session with displayControl := some 0x06, ioFault := true, trace := [.i2cWrite 0x27 0x0C] }, [],
    some (.err (.ioFailure (.i2cWrite 0x27 0x0C))), [], []⟩

theorem cursor_fails : exec .cursor (machine i16x2Session [.fail]) = .next cursorFailed := by rfl
theorem witness_RequestsOnlyAppendToTrace : Instr.cursor.isConstruct = false ∧
    (machine i16x2Session [.fail]).session = some i16x2Session ∧
    exec .cursor (machine i16x2Session [.fail]) = .next cursorFailed := ⟨rfl, rfl, cursor_fails⟩

/-- One request that writes no register and no `claimed`, so that all three clauses speak. -/
theorem witness_OnlyTheirOperationsWriteRegisters : Instr.scrollLeft.isConstruct = false ∧
    (machine i16x2Session [.fail]).session = some i16x2Session ∧
    (∃ t ses', exec .scrollLeft (machine i16x2Session [.fail]) = .next t ∧ t.session = some ses') ∧
    Instr.scrollLeft ∉ [Instr.display, .noDisplay, .cursor, .noCursor, .blink, .noBlink] ∧
    Instr.scrollLeft ∉ [Instr.leftToRight, .rightToLeft, .autoscroll, .noAutoscroll] ∧ Instr.scrollLeft ≠ .cleanup :=
  ⟨rfl, rfl, ⟨_, _, rfl, rfl⟩, by decide, by decide, by decide⟩
theorem witness_OnlyCleanupChangesThePhase : Instr.cleanup.isConstruct = false ∧ i16x2.session = some i16x2Session ∧
    exec .cleanup i16x2 = .next cleaned ∧
    cleaned.session = some { i16x2Session with phase := .released, claimed := [], trace := [.i2cClose 0x27] } :=
  ⟨rfl, rfl, rfl, rfl⟩
theorem witness_StatusBitsAreSticky : Instr.cursor.isConstruct = false ∧
    (machine i16x2Session [.fail]).session = some i16x2Session ∧
    exec .cursor (machine i16x2Session [.fail]) = .next cursorFailed ∧ ∃ ses', cursorFailed.session = some ses' :=
  ⟨rfl, rfl, cursor_fails, _, rfl⟩
theorem witness_InvalidArgumentChangesNothing :
    exec (.setCursor 0 16) i16x2 = .next { i16x2 with result := some (.err (.invalidArgument (.col 16))) } := by rfl
theorem witness_IoFailureEndsTheRequest : Instr.cursor.needsReady = true ∧
    Ready (machine i16x2Session [.fail]) i16x2Session ∧
    exec .cursor (machine i16x2Session [.fail]) = .next cursorFailed ∧
    cursorFailed.result = some (.err (.ioFailure (.i2cWrite 0x27 0x0C))) := ⟨rfl, ⟨rfl, rfl⟩, cursor_fails, rfl⟩
theorem witness_OperationsIndependentOfTransport : Instr.display.needsReady = true ∧ Ready i16x2 i16x2Session ∧
    Ready g16x2bl g16x2blSession ∧ i16x2Session.Legal ∧ g16x2blSession.Legal ∧ NoCallFails i16x2 ∧ NoCallFails g16x2bl ∧
    i16x2Session.cfg.columns = g16x2blSession.cfg.columns ∧ i16x2Session.cfg.numLines = g16x2blSession.cfg.numLines ∧
    i16x2Session.displayControl = g16x2blSession.displayControl ∧ i16x2Session.entryMode = g16x2blSession.entryMode :=
  ⟨rfl, i16x2_ready, g16x2bl_ready, i16x2Session_legal, g16x2blSession_legal, i16x2_no_call_fails, g16x2bl_no_call_fails, rfl,
    rfl, rfl, rfl⟩
theorem witness_OperationsAreWellFormedWireRows : Instr.disableBacklight.needsReady = true ∧ Ready g16x2bl g16x2blSession ∧
    g16x2blSession.Legal ∧ NoCallFails g16x2bl ∧ ∃ t, exec .disableBacklight g16x2bl = .next t :=
  ⟨rfl, g16x2bl_ready, g16x2blSession_legal, g16x2bl_no_call_fails, _, rfl⟩
theorem witness_OperationsTakeTheirMinimumTime : Instr.clear.needsReady = true ∧ Ready i16x2 i16x2Session ∧
    i16x2Session.Legal ∧ NoCallFails i16x2 ∧ ∃ t, exec .clear i16x2 = .next t ∧ t.result = some .ok :=
  ⟨rfl, i16x2_ready, i16x2Session_legal, i16x2_no_call_fails, _, rfl, rfl⟩
theorem witness_SessionsStayLegal : cleaning.Legal ∧ step cleaning = .next cleaned := ⟨cleaning_legal, cleaning_step⟩
theorem witness_TracesStayWithinTheirTransport : cleaning.Legal ∧ cleaning.TracesBelong ∧ step cleaning = .next cleaned :=
  ⟨cleaning_legal, ⟨fun _ h => by cases h; simp [i16x2Session], by simp [cleaning, i16x2, machine, State.withUnit]⟩, cleaning_step⟩
theorem witness_ResourcesAreReleasedOnce : cleaning.Legal ∧ cleaning.ReleasedOnce ∧ step cleaning = .next cleaned :=
  ⟨cleaning_legal,
    ⟨fun _ h => by cases h; exact ⟨fun p => by simp [i16x2Session], by decide, fun a => List.count_le_length (a := Resource.bus a) (l := [.bus 0x27]) |> (by simpa [i16x2Session] using ·)⟩,
      by simp [cleaning, i16x2, machine, State.withUnit]⟩, cleaning_step⟩

end Sys2Proof.Tests
end

section
/-! SUPPORT. What one request can do, said once: the event lists of the wire rows, the four ways a request other than a
construction ends, and what a construction leaves; then the statements about the state that follow from it. -/

namespace Sys2Proof.Machine

/-! ## Which events a request issues -/

/-- The events of a nibble unit are neither claims nor PWM calls. -/
theorem nibbleEvents_mem {t : Transport} {rs n} : ∀ {e}, e ∈ nibbleEvents t rs n → e.isClaim = false ∧ e.isPwm = false := by
  cases t <;> simp [nibbleEvents, pulseEvents, Event.isClaim, Event.isPwm]

theorem sendEvents_mem {t : Transport} {rs v e} (h : e ∈ sendEvents t rs v) : e.isClaim = false ∧ e.isPwm = false :=
  (List.mem_append.mp h).elim nibbleEvents_mem nibbleEvents_mem

theorem frames_mem {t : Transport} {us e} (h : e ∈ frames t us) : e.isClaim = false ∧ e.isPwm = false := by
  obtain ⟨u, -, hu⟩ := List.mem_flatMap.mp h
  exact sendEvents_mem hu

/-- The backlight requests issue PWM calls that claim nothing. -/
theorem enableBacklightEvents_mem {t : Transport} {n : Int} :
    ∀ {e}, e ∈ enableBacklightEvents t n → e.isClaim = false ∧ e.isPwm = true := by
  cases t <;> simp [enableBacklightEvents, Event.isClaim, Event.isPwm]

theorem disableBacklightEvents_mem {t : Transport} :
    ∀ {e}, e ∈ disableBacklightEvents t → e.isClaim = false ∧ e.isPwm = true := by
  cases t <;> simp [disableBacklightEvents, Event.isClaim, Event.isPwm]

theorem requestTail_no_claim {i : Instr} {ses e} (h : e ∈ requestTail i ses) : e.isClaim = false := by
  cases i with
  | clear | home => obtain rfl := List.mem_singleton.mp h; rfl
  | enableBacklight n => exact (enableBacklightEvents_mem h).1
  | disableBacklight => exact (disableBacklightEvents_mem h).1
  | _ => cases h

theorem requestEvents_no_claim (i : Instr) (ses : Session) : ∀ e ∈ requestEvents i ses, e.isClaim = false := fun _ h =>
  (List.mem_append.mp h).elim (fun h => (frames_mem h).1) requestTail_no_claim

theorem releaseEvents_no_claim (t : Transport) (rs : List Resource) : ∀ e ∈ releaseEvents t rs, e.isClaim = false := by
  intro e h
  obtain ⟨r, -, rfl⟩ := List.mem_map.mp h
  cases r <;> rfl

/-! ## The wire rows alone -/

/-- A word of nine bits is framed as its low byte with the mode flag of its bit 8 (30_encoding.md R92). -/
theorem sendEvents_word (t : Transport) (rs : Bool) (b : Byte) {w : BitVec 9} (h : w = BitVec.cons rs b) :
    sendEvents t (w.getLsbD 8) (w.toNat % 256) = frames t [(rs, b.toNat)] := by
  have hb := b.isLt
  have hrs : w.getLsbD 8 = rs := by rw [h, BitVec.getLsbD_cons]; rfl
  have hv : w.toNat % 256 = b.toNat := by
    rw [h, BitVec.toNat_cons', Nat.shiftLeft_eq]; omega
  rw [hrs, hv]; simp [frames]

theorem unitEvents_clearDisplay (t : Transport) :
    unitEvents t .clearDisplay = frames t [(false, 0x01)] ++ [.wait longCommandWait] := by simp [frames]; rfl

theorem unitEvents_returnHome (t : Transport) :
    unitEvents t .returnHome = frames t [(false, 0x02)] ++ [.wait longCommandWait] := by simp [frames]; rfl

theorem unitEvents_entryModeSet (t : Transport) (increment shift : Bool) :
    unitEvents t (.entryModeSet increment shift) = frames t [(false, (entryModeSetByte increment shift).toNat)] :=
  sendEvents_word t _ _ (by revert increment shift; decide)

theorem unitEvents_displayControl (t : Transport) (d c b : Bool) :
    unitEvents t (.displayControl d c b) = frames t [(false, (displayControlByte d c b).toNat)] :=
  sendEvents_word t _ _ (by revert d c b; decide)

theorem unitEvents_cursorShift (t : Transport) (move right : Bool) :
    unitEvents t (.cursorShift move right) = frames t [(false, (cursorShiftByte move right).toNat)] :=
  sendEvents_word t _ _ (by revert move right; decide)

theorem unitEvents_functionSet (t : Transport) (dl n f : Bool) :
    unitEvents t (.functionSet dl n f) = frames t [(false, (functionSetByte dl n f).toNat)] :=
  sendEvents_word t _ _ (by revert dl n f; decide)

theorem unitEvents_setCgramAddr (t : Transport) (a : BitVec 6) :
    unitEvents t (.setCgramAddr a) = frames t [(false, (setCgramAddrCommand ||| a.setWidth 8).toNat)] :=
  sendEvents_word t _ _ (by revert a; decide)

theorem unitEvents_setDdramAddr (t : Transport) (a : BitVec 7) :
    unitEvents t (.setDdramAddr a) = frames t [(false, (setDdramAddrCommand ||| a.setWidth 8).toNat)] :=
  sendEvents_word t _ _ (by revert a; decide)

theorem unitEvents_dataWrite (t : Transport) (b : Byte) :
    unitEvents t (.dataWrite b) = frames t [(true, b.toNat)] :=
  sendEvents_word t _ _ (by revert b; decide)

/-- A wire row in a live phase whose body issues a fixed list. -/
theorem runUnit_emits {s : State} {ses : Session} {body : Sequencer → Sequencer} {es : List Event} (h : Live s ses)
    (hb : body (.start ses s.answers) = (Sequencer.start ses s.answers).emit es) :
    runUnit s body = .next (s.attempted ses es) := by
  rw [runUnit_live h.1 h.2, hb, Sequencer.outcome_emit]

/-- A wire row in a live phase issues the events of its unit. -/
theorem exec_wireRow {s : State} {ses : Session} {i : Instr} (hi : i.isWireUnit = true) (h : Live s ses) :
    exec i s = .next (s.attempted ses (unitEvents ses.cfg.transport i)) := by
  cases i with
  | clearDisplay => exact runUnit_emits h (unitEvents_clearDisplay _ ▸ Sequencer.longCommand_eq _ _)
  | returnHome => exact runUnit_emits h (unitEvents_returnHome _ ▸ Sequencer.longCommand_eq _ _)
  | entryModeSet a b => exact runUnit_emits h (unitEvents_entryModeSet _ a b ▸ Sequencer.command_eq _ _)
  | displayControl a b c => exact runUnit_emits h (unitEvents_displayControl _ a b c ▸ Sequencer.command_eq _ _)
  | cursorShift a b => exact runUnit_emits h (unitEvents_cursorShift _ a b ▸ Sequencer.command_eq _ _)
  | functionSet a b c => exact runUnit_emits h (unitEvents_functionSet _ a b c ▸ Sequencer.command_eq _ _)
  | setCgramAddr a => exact runUnit_emits h (unitEvents_setCgramAddr _ a ▸ Sequencer.command_eq _ _)
  | setDdramAddr a => exact runUnit_emits h (unitEvents_setDdramAddr _ a ▸ Sequencer.command_eq _ _)
  | dataWrite b => exact runUnit_emits h (unitEvents_dataWrite _ b ▸ Sequencer.writeData_eq _ _)
  | handshakeNibble3 | handshakeNibble2 => exact runUnit_emits h rfl
  | _ => cases hi

theorem unitEvents_no_claim (t : Transport) {i : Instr} (hi : i.isWireUnit = true) :
    ∀ e ∈ unitEvents t i, e.isClaim = false := by
  have waits : ∀ us, ∀ e ∈ frames t us ++ [.wait longCommandWait], e.isClaim = false := fun us e he =>
    (List.mem_append.mp he).elim (fun he => (frames_mem he).1) (fun he => by rw [List.mem_singleton.mp he]; rfl)
  cases i with
  | clearDisplay => exact unitEvents_clearDisplay t ▸ waits _
  | returnHome => exact unitEvents_returnHome t ▸ waits _
  | handshakeNibble3 | handshakeNibble2 => exact fun _ he => (nibbleEvents_mem he).1
  | entryModeSet _ _ | displayControl _ _ _ | cursorShift _ _ | functionSet _ _ _ | setCgramAddr _ | setDdramAddr _
  | dataWrite _ => exact fun _ he => (sendEvents_mem he).1
  | _ => cases hi

/-! ## What a request writes -/

/-- The operations of `display_control` (43_operations.md R220 to R225). -/
def displayControlOperations : List Instr := [.display, .noDisplay, .cursor, .noCursor, .blink, .noBlink]

/-- The operations of `entry_mode` (R228 to R231). -/
def entryModeOperations : List Instr := [.leftToRight, .rightToLeft, .autoscroll, .noAutoscroll]

theorem Session.updateDisplayControl_eq_some {f ses ses'} (h : Session.updateDisplayControl f ses = some ses') :
    ∃ dc, ses.displayControl = some dc ∧ ses' = { ses with displayControl := some (f dc) } := by
  obtain ⟨dc, hd, he⟩ := Option.map_eq_some_iff.mp h
  exact ⟨dc, hd, he.symm⟩

theorem Session.updateEntryMode_eq_some {f ses ses'} (h : Session.updateEntryMode f ses = some ses') :
    ∃ em, ses.entryMode = some em ∧ ses' = { ses with entryMode := some (f em) } := by
  obtain ⟨em, he, he'⟩ := Option.map_eq_some_iff.mp h
  exact ⟨em, he, he'.symm⟩

/-- A request writes no register, or `display_control` by one of its operations, or `entry_mode` by one of its own, and the
bits outside the register's fields stay 0 (10_state.md R25, R26). -/
theorem requestWrites_cases {i : Instr} {ses ses' : Session} (h : requestWrites i ses = some ses') :
    ses' = ses ∨
      (i ∈ displayControlOperations ∧ ∃ dc dc' : Byte, ses.displayControl = some dc ∧
        (dc &&& 0xF8 = 0 → dc' &&& 0xF8 = 0) ∧ ses' = { ses with displayControl := some dc' }) ∨
      (i ∈ entryModeOperations ∧ ∃ em em' : Byte, ses.entryMode = some em ∧
        (em &&& 0xFC = 0 → em' &&& 0xFC = 0) ∧ ses' = { ses with entryMode := some em' }) := by
  cases i with
  | display | cursor | blink =>
    obtain ⟨dc, hd, he⟩ := Session.updateDisplayControl_eq_some h
    exact .inr (.inl ⟨by decide, dc, _, hd, fun hr => setFlag_reserved hr (by decide), he⟩)
  | noDisplay | noCursor | noBlink =>
    obtain ⟨dc, hd, he⟩ := Session.updateDisplayControl_eq_some h
    exact .inr (.inl ⟨by decide, dc, _, hd, clearFlag_reserved _, he⟩)
  | leftToRight | autoscroll =>
    obtain ⟨em, hd, he⟩ := Session.updateEntryMode_eq_some h
    exact .inr (.inr ⟨by decide, em, _, hd, fun hr => setFlag_reserved hr (by decide), he⟩)
  | rightToLeft | noAutoscroll =>
    obtain ⟨em, hd, he⟩ := Session.updateEntryMode_eq_some h
    exact .inr (.inr ⟨by decide, em, _, hd, clearFlag_reserved _, he⟩)
  | _ => exact .inl (Option.some.inj h).symm

/-- The frame of a request's writes: everything but the two control registers. -/
theorem requestWrites_frame {i : Instr} {ses ses' : Session} (h : requestWrites i ses = some ses') :
    ses' = { ses with displayControl := ses'.displayControl, entryMode := ses'.entryMode } := by
  rcases requestWrites_cases h with rfl | ⟨-, dc, dc', -, -, rfl⟩ | ⟨-, em, em', -, -, rfl⟩ <;> rfl

theorem requestWrites_displayControl {i : Instr} {ses ses' : Session} (h : requestWrites i ses = some ses')
    (hi : i ∉ displayControlOperations) : ses'.displayControl = ses.displayControl := by
  rcases requestWrites_cases h with rfl | ⟨hm, -⟩ | ⟨-, em, em', -, -, rfl⟩
  · rfl
  · exact absurd hm hi
  · rfl

theorem requestWrites_entryMode {i : Instr} {ses ses' : Session} (h : requestWrites i ses = some ses')
    (hi : i ∉ entryModeOperations) : ses'.entryMode = ses.entryMode := by
  rcases requestWrites_cases h with rfl | ⟨-, dc, dc', -, -, rfl⟩ | ⟨hm, -⟩
  · rfl
  · rfl
  · exact absurd hm hi

/-! ## What one request can do -/

/-- The session a `cleanup()` leaves in Ready and Failed (40_transport.md R134). -/
def Session.cleanedUp (ses : Session) (answers : List Answer) : Session :=
  { ses with
    phase := .released
    claimed := []
    trace := ses.trace ++ releaseEvents ses.cfg.transport ses.claimed
    ioFault := ioFaultAfter ses.ioFault (attempt (releaseEvents ses.cfg.transport ses.claimed) answers).failing }

/-- The four ways a request other than a construction ends. -/
inductive Answered (i : Instr) (s : State) : State → Prop
  /-- A refusal (60_exceptions.md R310). -/
  | refused (r : RefusalReason) : Answered i s (s.refuse r)
  /-- A request that leaves the session alone: an argument rejected (43_operations.md R219), or cleanup in Released. -/
  | unchanged {ses : Session} {r : RequestResult} (hs : s.session = some ses)
      (hr : r = .ok ∨ ∃ info, r = .err (.invalidArgument info)) : Answered i s (s.finish ses s.answers r)
  /-- Register writes, then events that claim nothing. -/
  | issued {ses ses' : Session} {es : List Event} (hs : s.session = some ses) (hw : requestWrites i ses = some ses')
      (hc : ∀ e ∈ es, e.isClaim = false) : Answered i s (s.attempted ses' es)
  /-- `cleanup()` in Ready and Failed. -/
  | released {ses : Session} (hs : s.session = some ses) (hi : i = .cleanup) (hp : ses.phase = .ready ∨ ses.phase = .failed) :
      Answered i s (s.finish (ses.cleanedUp s.answers)
        (s.answers.drop (callCount (releaseEvents ses.cfg.transport ses.claimed)))
        (resultOf (attempt (releaseEvents ses.cfg.transport ses.claimed) s.answers).failing))

/-- A public operation or backlight request outside Ready is refused, and so without a session (R218). -/
theorem exec_needsReady_refused {i : Instr} (hi : i.needsReady = true) {s : State}
    (h : ∀ ses, s.session = some ses → ses.phase ≠ .ready) : exec i s = .next (s.refuse .notReady) := by
  have refused : ∀ check body, runReady s check body = .next (s.refuse .notReady) := fun check body => by
    cases hs : s.session with
    | none => exact runReady_none hs check body
    | some ses => exact runReady_not_ready hs (h ses hs) check body
  cases i with
  | clear | home | setCursor _ _ | writeText _ _ | writeRaw _ _ _ | createChar _ _ | display | noDisplay | cursor | noCursor
  | blink | noBlink | scrollLeft | scrollRight | leftToRight | rightToLeft | autoscroll | noAutoscroll | enableBacklight _
  | disableBacklight =>
    simp only [exec, execClear, execHome, execSetCursor, execWriteText, execWriteRaw, execCreateChar, execDisplay,
      execNoDisplay, execCursor, execNoCursor, execBlink, execNoBlink, execScrollLeft, execScrollRight, execLeftToRight,
      execRightToLeft, execAutoscroll, execNoAutoscroll, execEnableBacklight, execDisableBacklight, refused]
  | _ => cases hi

/-- A wire row outside a live phase is refused, and so without a session. -/
theorem exec_wireRow_refused {i : Instr} (hi : i.isWireUnit = true) {s : State}
    (h : ∀ ses, s.session = some ses → ses.phase.isLive = false) : exec i s = .next (s.refuse .notReady) := by
  have refused : ∀ body, runUnit s body = .next (s.refuse .notReady) := fun body => by
    cases hs : s.session with
    | none => exact runUnit_none hs body
    | some ses => exact runUnit_not_live hs (h ses hs) body
  cases i with
  | clearDisplay | returnHome | entryModeSet _ _ | displayControl _ _ _ | cursorShift _ _ | functionSet _ _ _
  | setCgramAddr _ | setDdramAddr _ | dataWrite _ | handshakeNibble3 | handshakeNibble2 => exact refused _
  | _ => cases hi

theorem requestOutcome_answered (i : Instr) {s : State} {ses : Session} (hs : s.session = some ses) :
    ∃ t, requestOutcome i s ses = .next t ∧ Answered i s t := by
  unfold requestOutcome
  cases hp : requestProblem i ses with
  | some info => exact ⟨_, rfl, .unchanged hs (.inr ⟨info, rfl⟩)⟩
  | none =>
    cases hw : requestWrites i ses with
    | none => exact ⟨_, rfl, .refused _⟩
    | some ses' => exact ⟨_, rfl, .issued hs hw (requestEvents_no_claim i ses')⟩

theorem exec_needsReady_answered {i : Instr} (hi : i.needsReady = true) (s : State) :
    ∃ t, exec i s = .next t ∧ Answered i s t := by
  by_cases h : ∃ ses, Ready s ses
  · obtain ⟨ses, hr⟩ := h
    rw [exec_ready hi hr]
    exact requestOutcome_answered i hr.1
  · exact ⟨_, exec_needsReady_refused hi fun ses hs hp => h ⟨ses, hs, hp⟩, .refused _⟩

theorem requestWrites_wireRow {i : Instr} (hi : i.isWireUnit = true) (ses : Session) : requestWrites i ses = some ses := by
  cases i with
  | clearDisplay | returnHome | entryModeSet _ _ | displayControl _ _ _ | cursorShift _ _ | functionSet _ _ _
  | setCgramAddr _ | setDdramAddr _ | dataWrite _ | handshakeNibble3 | handshakeNibble2 => rfl
  | _ => cases hi

theorem exec_wireRow_answered {i : Instr} (hi : i.isWireUnit = true) (s : State) :
    ∃ t, exec i s = .next t ∧ Answered i s t := by
  by_cases h : ∃ ses, Live s ses
  · obtain ⟨ses, hl⟩ := h
    exact ⟨_, exec_wireRow hi hl, .issued hl.1 (requestWrites_wireRow hi ses) (unitEvents_no_claim _ hi)⟩
  · exact ⟨_, exec_wireRow_refused hi fun ses hs => Bool.eq_false_iff.mpr fun hp => h ⟨ses, hs, hp⟩, .refused _⟩

theorem exec_cleanup_answered (s : State) : ∃ t, exec .cleanup s = .next t ∧ Answered .cleanup s t := by
  change ∃ t, execCleanup s = .next t ∧ _
  unfold execCleanup
  cases hs : s.session with
  | none => exact ⟨_, rfl, .refused _⟩
  | some ses =>
    cases hp : ses.phase with
    | released => exact ⟨_, by simp only [hp], .unchanged hs (.inl rfl)⟩
    | ready | failed =>
      refine ⟨_, ?_, .released hs rfl (by simp [hp])⟩
      simp only [hp]
      exact Sequencer.outcome_release s { ses with phase := .released }
    | uninitialized | handshakeIn4BitMode => exact ⟨_, by simp only [hp], .refused .notReady⟩

/-- Every request other than a construction is answered in one of the four ways. -/
theorem exec_answered {i : Instr} (hi : i.isConstruct = false) (s : State) :
    ∃ t, exec i s = .next t ∧ Answered i s t := by
  by_cases hr : i.needsReady = true
  · exact exec_needsReady_answered hr s
  by_cases hw : i.isWireUnit = true
  · exact exec_wireRow_answered hw s
  cases i with
  | cleanup => exact exec_cleanup_answered s
  | reservedRequest17 | reservedRequest18 _ => exact ⟨_, rfl, .refused _⟩
  | constructGpio _ _ _ _ _ _ _ _ | constructI2c _ _ _ _ => cases hi
  | _ => simp [Instr.needsReady, Instr.isWireUnit] at hr hw

/-- The inversion of a request other than a construction. -/
theorem Answered.of_exec {i : Instr} {s t : State} (hi : i.isConstruct = false) (h : exec i s = .next t) :
    Answered i s t := by
  obtain ⟨t', he, ha⟩ := exec_answered hi s
  rw [h] at he
  exact Host.Outcome.next.inj he ▸ ha

/-! ## What an attempt leaves -/

theorem attempt_left_suffix (es : List Event) (as : List Answer) : (attempt es as).left <:+ as := by
  rcases attempt_cases es as with ⟨-, -, h⟩ | ⟨_, _, _, -, -, -, -, h, -⟩ <;> exact h ▸ List.drop_suffix _ _

theorem attempt_failing_mem {es : List Event} {as e} (h : (attempt es as).failing = some e) : e ∈ es := by
  rcases attempt_cases es as with ⟨hn, -⟩ | ⟨pre, e', post, rfl, -, hf, -⟩
  · exact absurd (h.symm.trans hn) (by simp)
  · obtain rfl := Option.some.inj (h.symm.trans hf)
    simp

/-- Events that claim nothing set `io_fault` exactly when the request returns IOFailure (10_state.md R34). -/
theorem ioFaultAfter_iff {es : List Event} (hc : ∀ e ∈ es, e.isClaim = false) (as : List Answer) (before : Bool) :
    ioFaultAfter before (attempt es as).failing = true ↔
      before = true ∨ ∃ e, resultOf (attempt es as).failing = .err (.ioFailure e) := by
  cases hf : (attempt es as).failing with
  | none => simp [ioFaultAfter, resultOf]
  | some e => simp [ioFaultAfter, resultOf, errorOfFailing, hc e (attempt_failing_mem hf)]

theorem resultOf_ne_refused (o : Option Event) (r : RefusalReason) : resultOf o ≠ .refused r := by
  cases o <;> simp [resultOf]

/-- Settles O45, by the four ways a request ends: each appends to the trace and takes answers from the front. -/
theorem requestsOnlyAppendToTrace : Obligations.RequestsOnlyAppendToTrace := by
  intro s t i ses hi hs h
  cases Answered.of_exec hi h with
  | refused r => exact ⟨rfl, rfl, List.suffix_rfl, { ses with refused := true }, by simp [hs], rfl, rfl, List.prefix_rfl⟩
  | unchanged hs' _ =>
    obtain rfl := Option.some.inj (hs.symm.trans hs')
    exact ⟨rfl, rfl, List.suffix_rfl, ses, rfl, rfl, rfl, List.prefix_rfl⟩
  | issued hs' hw _ =>
    obtain rfl := Option.some.inj (hs.symm.trans hs')
    rw [requestWrites_frame hw]
    exact ⟨rfl, rfl, attempt_left_suffix _ _, _, rfl, rfl, rfl, List.prefix_append _ _⟩
  | released hs' _ _ =>
    obtain rfl := Option.some.inj (hs.symm.trans hs')
    exact ⟨rfl, rfl, List.drop_suffix _ _, _, rfl, rfl, rfl, List.prefix_append _ _⟩

/-- Settles O46, by the four ways a request ends and the frame of a request's register writes. -/
theorem onlyTheirOperationsWriteRegisters : Obligations.OnlyTheirOperationsWriteRegisters := by
  intro s t i ses ses' hi hs h ht
  cases Answered.of_exec hi h with
  | refused r =>
    obtain rfl : { ses with refused := true } = ses' := by simpa [hs] using ht
    exact ⟨fun _ => rfl, fun _ => rfl, fun _ => rfl⟩
  | unchanged hs' _ =>
    obtain rfl := Option.some.inj (hs.symm.trans hs')
    obtain rfl := Option.some.inj ht
    exact ⟨fun _ => rfl, fun _ => rfl, fun _ => rfl⟩
  | issued hs' hw _ =>
    obtain rfl := Option.some.inj (hs.symm.trans hs')
    obtain rfl := Option.some.inj ht
    exact ⟨(requestWrites_displayControl hw :), (requestWrites_entryMode hw :),
      fun _ => by rw [requestWrites_frame hw]; rfl⟩
  | released hs' hc _ =>
    obtain rfl := Option.some.inj (hs.symm.trans hs')
    obtain rfl := Option.some.inj ht
    exact ⟨fun _ => rfl, fun _ => rfl, fun hn => absurd hc hn⟩

/-- Settles O48, by the four ways a request ends: the events of a request claim nothing, so a failing call is an IOFailure. -/
theorem statusBitsAreSticky : Obligations.StatusBitsAreSticky := by
  intro s t i ses ses' hi hs h ht
  cases Answered.of_exec hi h with
  | refused r =>
    obtain rfl : { ses with refused := true } = ses' := by simpa [hs] using ht
    simp
  | unchanged hs' hr =>
    obtain rfl := Option.some.inj (hs.symm.trans hs')
    obtain rfl := Option.some.inj ht
    rcases hr with rfl | ⟨info, rfl⟩ <;> simp
  | issued hs' hw hc =>
    obtain rfl := Option.some.inj (hs.symm.trans hs')
    obtain rfl := Option.some.inj ht
    rw [requestWrites_frame hw]
    simp [State.attempted, ioFaultAfter_iff hc, resultOf_ne_refused]
  | released hs' _ _ =>
    obtain rfl := Option.some.inj (hs.symm.trans hs')
    obtain rfl := Option.some.inj ht
    simp [Session.cleanedUp, ioFaultAfter_iff (releaseEvents_no_claim _ _), resultOf_ne_refused]

/-- Settles O43: a request whose register write has no value to read is refused (`exec_ready`). -/
theorem unwrittenRegisterIsRefused : Obligations.UnwrittenRegisterIsRefused := by
  intro s ses h
  have hrefuse : s.refuse .unwrittenRegister =
      { s with session := some { ses with refused := true }, result := some (.refused .unwrittenRegister) } := by
    simp [State.refuse, h.1]
  have refused : ∀ i : Instr, i.needsReady = true → requestProblem i ses = none → requestWrites i ses = none →
      exec i s = .next (s.refuse .unwrittenRegister) := fun i hi hp hw => by
    rw [exec_ready hi h, requestOutcome, hp, hw]
  rw [← hrefuse]
  constructor
  · intro hd i hi
    simp only [List.mem_cons, List.not_mem_nil, or_false] at hi
    rcases hi with rfl | rfl | rfl | rfl | rfl | rfl <;>
      exact refused _ rfl rfl (by simp [requestWrites, Session.updateDisplayControl, hd])
  · intro he i hi
    simp only [List.mem_cons, List.not_mem_nil, or_false] at hi
    rcases hi with rfl | rfl | rfl | rfl <;>
      exact refused _ rfl rfl (by simp [requestWrites, Session.updateEntryMode, he])

/-! ## Legality -/

/-- The status bits and the trace are no part of legality. -/
theorem Session.Legal.frame {ses : Session} (h : ses.Legal) (ioFault refused : Bool) (trace : List Event) :
    Session.Legal { ses with ioFault, refused, trace } :=
  ⟨h.cfg, h.phase, h.displayFunction, h.displayControl, h.entryMode, h.written, h.claimedReady, h.claimedFailed,
    h.claimedReleased⟩

theorem Session.Legal.afterWrites {i : Instr} {ses ses' : Session} (h : ses.Legal)
    (hw : requestWrites i ses = some ses') : ses'.Legal := by
  rcases requestWrites_cases hw with rfl | ⟨-, dc, dc', hd, hr, rfl⟩ | ⟨-, em, em', he, hr, rfl⟩
  · exact h
  · exact { h with
      displayControl := fun d hd' => Option.some.inj hd' ▸ hr (h.displayControl dc hd)
      written := fun hp => ⟨rfl, (h.written hp).2⟩ }
  · exact { h with
      entryMode := fun e he' => Option.some.inj he' ▸ hr (h.entryMode em he)
      written := fun hp => ⟨(h.written hp).1, rfl⟩ }

theorem Session.Legal.cleanedUp {ses : Session} (h : ses.Legal) (as : List Answer) : (ses.cleanedUp as).Legal where
  cfg := h.cfg
  phase := .inr (.inr rfl)
  displayFunction := h.displayFunction
  displayControl := h.displayControl
  entryMode := h.entryMode
  written := nofun
  claimedReady := nofun
  claimedFailed := nofun
  claimedReleased := fun _ => rfl

theorem State.Legal.withSession {s : State} {ses : Session} (h : s.Legal) (hses : ses.Legal) (as r) :
    (s.finish ses as r).Legal :=
  ⟨fun _ hs => Option.some.inj hs ▸ hses, h.earlier⟩

theorem State.Legal.refuse {s : State} (h : s.Legal) (r : RefusalReason) : (s.refuse r).Legal := by
  refine ⟨fun ses hs => ?_, h.earlier⟩
  obtain ⟨old, ho, rfl⟩ := Option.map_eq_some_iff.mp hs
  exact (h.current old ho).frame _ _ _

theorem Answered.legal {i : Instr} {s t : State} (h : Answered i s t) (hs : s.Legal) : t.Legal := by
  cases h with
  | refused r => exact hs.refuse r
  | unchanged h1 _ => exact hs.withSession (hs.current _ h1) _ _
  | issued h1 hw _ => exact hs.withSession (((hs.current _ h1).afterWrites hw).frame _ _ _) _ _
  | released h1 _ _ => exact hs.withSession ((hs.current _ h1).cleanedUp _) _ _

/-! ## Construction -/

theorem geometryProblem_eq_none {columns lines : Nat} (h : geometryProblem columns lines = none) :
    (1 ≤ columns ∧ columns ≤ 40) ∧ 1 ≤ lines ∧ lines ≤ 4 := by
  unfold geometryProblem at h
  split_ifs at h with hc hl
  exact ⟨by simpa [legalColumns, Nat.one_le_iff_ne_zero] using hc,
    by simpa [legalLines, Nat.one_le_iff_ne_zero] using hl⟩

/-- A construction is turned down with a result alone, or runs with a configuration that validation admits (R161). -/
theorem exec_construct_cases {i : Instr} (hi : i.isConstruct = true) (s : State) :
    (∃ r, exec i s = .next { s with result := some r }) ∨
      ∃ cfg : SessionConfig, cfg.Legal ∧ exec i s = .next (s.constructed cfg) := by
  cases i with
  | constructGpio rs en pins bl rw columns lines dot =>
    change (∃ r, execConstructGpio rs en pins bl rw columns lines dot s = _) ∨
      ∃ cfg : SessionConfig, cfg.Legal ∧ execConstructGpio rs en pins bl rw columns lines dot s = _
    unfold execConstructGpio
    split
    · exact .inl ⟨_, rfl⟩
    split
    · next d4 d5 d6 d7 _ =>
      split
      · exact .inl ⟨_, rfl⟩
      next hd =>
      cases hg : geometryProblem columns lines with
      | some info => exact .inl ⟨_, rfl⟩
      | none =>
        obtain ⟨hc, hl⟩ := geometryProblem_eq_none hg
        have distinct : (pinsPresent rs en [d4, d5, d6, d7] bl rw).Nodup := by simpa [pairwiseDistinct] using hd
        exact .inr ⟨gpioConfig rs en d4 d5 d6 d7 bl rw columns lines dot, ⟨⟨distinct, Nat.succ_pos _⟩, hc, hl⟩,
          runConstruction_eq _ s⟩
    · exact .inl ⟨_, rfl⟩
  | constructI2c address columns lines dot =>
    change (∃ r, execConstructI2c address columns lines dot s = _) ∨
      ∃ cfg : SessionConfig, cfg.Legal ∧ execConstructI2c address columns lines dot s = _
    unfold execConstructI2c
    cases hg : geometryProblem columns lines with
    | some info => exact .inl ⟨_, rfl⟩
    | none =>
      obtain ⟨hc, hl⟩ := geometryProblem_eq_none hg
      exact .inr ⟨i2cConfig address columns lines dot, ⟨trivial, hc, hl⟩, runConstruction_eq _ s⟩
  | _ => cases hi

theorem attempt_passed_of_prefix {es fs : List Event} {as} (h : es <+: fs) (hf : (attempt fs as).failing = none) :
    (attempt es as).failing = none := by
  obtain ⟨gs, rfl⟩ := h
  cases he : (attempt es as).failing with
  | none => rfl
  | some e => rw [attempt_append_of_failing he, he] at hf; cases hf

theorem eventsBeforeStep8_prefix (cfg : SessionConfig) : eventsBeforeStep8 cfg <+: constructionEvents cfg :=
  List.prefix_append _ _

theorem eventsBeforeStep6_prefix (cfg : SessionConfig) : eventsBeforeStep6 cfg <+: constructionEvents cfg :=
  ((List.prefix_append _ _).trans (List.prefix_append _ _)).trans (eventsBeforeStep8_prefix cfg)

theorem claimEvents_prefix (cfg : SessionConfig) : claimEvents cfg.transport <+: constructionEvents cfg :=
  ((List.prefix_append _ _).trans (List.prefix_append _ _)).trans (eventsBeforeStep6_prefix cfg)

/-- A construction in which no claim fails claims every resource. -/
theorem claimsMade_of_passed {t : Transport} {as : List Answer} (h : (attempt (claimEvents t) as).failing = none) :
    (allResources t).take (claimsMade t as) = allResources t := by
  simp [claimsMade, h, allResources]

theorem constructedSession_legal {cfg : SessionConfig} (h : cfg.Legal) (as : List Answer) :
    (constructedSession cfg as).Legal := by
  have ready : (constructedSession cfg as).phase = .ready → (attempt (constructionEvents cfg) as).failing = none := by
    intro hp
    by_contra hf
    simp [constructedSession, hf] at hp
  have passed : ∀ {es}, es <+: constructionEvents cfg → (constructedSession cfg as).phase = .ready →
      (attempt es as).failing = none := fun hpre hp => attempt_passed_of_prefix hpre (ready hp)
  have notReleased : (constructedSession cfg as).phase = .ready ∨ (constructedSession cfg as).phase = .failed := by
    by_cases hf : (attempt (constructionEvents cfg) as).failing = none <;> simp [constructedSession, hf]
  exact {
    cfg := h
    phase := notReleased.imp_right .inl
    displayFunction := rfl
    displayControl := fun dc hd => by
      obtain ⟨-, h4⟩ := Option.ite_none_right_eq_some.mp hd
      exact Option.some.inj h4 ▸ rfl
    entryMode := fun em he => by
      obtain ⟨-, h4⟩ := Option.ite_none_right_eq_some.mp he
      exact Option.some.inj h4 ▸ rfl
    written := fun hp => by
      simp [constructedSession, passed (eventsBeforeStep6_prefix cfg) hp, passed (eventsBeforeStep8_prefix cfg) hp]
    claimedReady := fun hp => claimsMade_of_passed (passed (claimEvents_prefix cfg) hp)
    claimedFailed := fun _ => List.take_prefix _ _
    claimedReleased := fun hp => by rcases notReleased with hn | hn <;> rw [hp] at hn <;> cases hn }

theorem State.Legal.constructed {s : State} {cfg : SessionConfig} (h : s.Legal) (hc : cfg.Legal) :
    (s.constructed cfg).Legal := by
  refine ⟨fun _ hs => Option.some.inj hs ▸ constructedSession_legal hc s.answers, fun ses hm => ?_⟩
  rcases List.mem_append.mp hm with hm | hm
  · exact h.earlier ses hm
  · exact h.current ses (Option.mem_toList.mp hm)

theorem exec_legal {i : Instr} {s t : State} (hs : s.Legal) (h : exec i s = .next t) : t.Legal := by
  cases hi : i.isConstruct with
  | false => exact (Answered.of_exec hi h).legal hs
  | true =>
    rcases exec_construct_cases hi s with ⟨r, he⟩ | ⟨cfg, hc, he⟩
    · obtain rfl := Host.Outcome.next.inj (he.symm.trans h)
      exact ⟨hs.current, hs.earlier⟩
    · obtain rfl := Host.Outcome.next.inj (he.symm.trans h)
      exact hs.constructed hc

/-- A step that goes on is idle or runs one instruction on the machine with its unit taken. -/
theorem step_next_cases {s t : State} (h : step s = .next t) :
    t = s ∨ ∃ u rest i, s.pending = u :: rest ∧ decode u = .ok i ∧ exec i { s with pending := rest } = .next t := by
  unfold step takeUnit at h
  cases hp : s.pending with
  | nil => rw [hp] at h; exact .inl (Host.Outcome.next.inj h).symm
  | cons u rest =>
    simp only [hp] at h
    cases hd : decode u with
    | error e => rw [hd] at h; cases h
    | ok i => rw [hd] at h; exact .inr ⟨u, rest, i, rfl, hd, h⟩

/-- Settles O54: taking a unit keeps legality, and so does every instruction (`exec_legal`). -/
theorem sessionsStayLegal : Obligations.SessionsStayLegal := by
  intro s t hs h
  rcases step_next_cases h with rfl | ⟨u, rest, i, -, -, he⟩
  · exact hs
  · exact exec_legal (s := { s with pending := rest }) ⟨hs.current, hs.earlier⟩ he

/-! ## Addresses -/

theorem ddramAddress_le {numLines col : Nat} (hl : numLines ≤ 4) (hc : col < 40) (row : Nat) :
    ddramAddress numLines row col ≤ 0x7B := by
  have hrow := rowOffset_le (row := clampRow numLines row) (by rw [clampRow_eq]; omega)
  unfold ddramAddress; omega

/-- An address below 0x80 leaves bit 7 to the command. -/
theorem setCursorValue_eq_add {numLines row col : Nat} (h : ddramAddress numLines row col ≤ 0x7B) :
    setCursorValue numLines row col = 0x80 + ddramAddress numLines row col := by
  have hor := Nat.two_pow_add_eq_or_of_lt (i := 7) (b := ddramAddress numLines row col) (by omega) 1
  exact hor.symm

/-- Settles O16: the last row offset is 0x54, the last column 39. -/
theorem ddramAddressFitsSevenBits : Obligations.DdramAddressFitsSevenBits := by
  intro cfg row col h hcol
  have haddr := ddramAddress_le h.lines.2 (hcol.trans_le h.columns.2) row
  exact ⟨haddr, setCursorValue_eq_add haddr⟩

/-! ## Sequences of wire rows -/

/-- The events are those of a list of wire rows the block may send (30_encoding.md R74, R86). -/
def AreWireRows (t : Transport) (es : List Event) : Prop :=
  ∃ units : List Instr, (∀ u ∈ units, u.isWireUnit = true ∧ u.wellFormed = true) ∧ es = units.flatMap (unitEvents t)

theorem AreWireRows.nil (t : Transport) : AreWireRows t [] := ⟨[], by simp, rfl⟩

theorem AreWireRows.row {t : Transport} {es} (u : Instr) (hw : u.isWireUnit = true) (hf : u.wellFormed = true)
    (h : unitEvents t u = es) : AreWireRows t es :=
  ⟨[u], by simp [hw, hf], by simp [h]⟩

theorem AreWireRows.append {t : Transport} {es fs} (h : AreWireRows t es) (h' : AreWireRows t fs) :
    AreWireRows t (es ++ fs) := by
  obtain ⟨us, hus, rfl⟩ := h
  obtain ⟨vs, hvs, rfl⟩ := h'
  exact ⟨us ++ vs, fun u hu => (List.mem_append.mp hu).elim (hus u) (hvs u), List.flatMap_append.symm⟩

theorem AreWireRows.cons {t : Transport} {u us} (h : AreWireRows t (frames t [u])) (h' : AreWireRows t (frames t us)) :
    AreWireRows t (frames t (u :: us)) := by
  rw [← List.singleton_append, frames_append]
  exact h.append h'

/-- Only bits 7:0 of a value are sent (42_framing.md R190). -/
theorem sendEvents_mod (t : Transport) (rs : Level) (v : Nat) : sendEvents t rs (v % 256) = sendEvents t rs v := by
  have hhigh : highNibble (v % 256) = highNibble v := by
    rw [highNibble_eq, highNibble_eq]
    apply BitVec.eq_of_toNat_eq; simp only [BitVec.toNat_ofNat]; omega
  have hlow : lowNibble (v % 256) = lowNibble v := by
    rw [lowNibble_eq, lowNibble_eq]
    apply BitVec.eq_of_toNat_eq; simp only [BitVec.toNat_ofNat]; omega
  rw [sendEvents, hhigh, hlow, sendEvents]

theorem AreWireRows.data (t : Transport) (v : Nat) : AreWireRows t (frames t [(true, v)]) :=
  .row (.dataWrite (BitVec.ofNat 8 v)) rfl rfl (by
    simp [unitEvents_dataWrite, frames, sendEvents_mod])

theorem AreWireRows.dataUnits (t : Transport) (vs : List Nat) : AreWireRows t (frames t (dataUnits vs)) := by
  induction vs with
  | nil => exact .nil t
  | cons v vs ih => exact (AreWireRows.data t v).cons ih

theorem setDdramAddr_toNat (a : BitVec 7) : (setDdramAddrCommand ||| a.setWidth 8).toNat = 0x80 + a.toNat := by
  revert a; decide

theorem setCgramAddr_toNat (a : BitVec 6) : (setCgramAddrCommand ||| a.setWidth 8).toNat = 0x40 + a.toNat := by
  revert a; decide

/-- The address of `set_cursor` is a DDRAM address the block may send. -/
theorem AreWireRows.setCursor (t : Transport) {numLines row col : Nat} (h : ddramAddress numLines row col ≤ 0x7B) :
    AreWireRows t (frames t [(false, setCursorValue numLines row col)]) := by
  have ha : (BitVec.ofNat 7 (ddramAddress numLines row col)).toNat = ddramAddress numLines row col := by
    rw [BitVec.toNat_ofNat]; omega
  refine .row (.setDdramAddr (BitVec.ofNat 7 (ddramAddress numLines row col))) rfl ?_ ?_
  · simpa only [Instr.wellFormed, isReachableDdram, ha, decide_eq_true_eq] using h
  · rw [unitEvents_setDdramAddr, setDdramAddr_toNat, ha, setCursorValue_eq_add h]

/-- The address of `create_char` is a slot base. -/
theorem AreWireRows.glyphSlot (t : Transport) (location : Nat) :
    AreWireRows t (frames t [(false, glyphSlotValue location)]) := by
  have base : ∀ slot < 8, isSlotBase (BitVec.ofNat 6 (8 * slot)) = true := by decide
  refine .row (.setCgramAddr (BitVec.ofNat 6 (8 * (location % 8)))) rfl (base _ (by omega)) ?_
  have ha : (BitVec.ofNat 6 (8 * (location % 8))).toNat = 8 * (location % 8) := by
    rw [BitVec.toNat_ofNat]; omega
  rw [unitEvents_setCgramAddr, setCgramAddr_toNat, ha, glyphSlotValue_eq]

theorem displayControlByte_of_reserved : ∀ dc : Byte, dc &&& 0xF8 = 0 →
    displayControlByte (dc.getLsbD 2) (dc.getLsbD 1) (dc.getLsbD 0) = displayControlCommand ||| dc := by decide

theorem entryModeSetByte_of_reserved : ∀ em : Byte, em &&& 0xFC = 0 →
    entryModeSetByte (em.getLsbD 1) (em.getLsbD 0) = entryModeSetCommand ||| em := by decide

/-- The resend of `display_control` is a wire row, its bits outside the fields being 0. -/
theorem AreWireRows.displayControl (t : Transport) {ses : Session} (h : ses.Legal) :
    AreWireRows t (frames t (ses.displayControl.toList.map fun dc => (false, (displayControlCommand ||| dc).toNat))) := by
  cases hd : ses.displayControl with
  | none => exact .nil t
  | some dc =>
    refine .row (.displayControl (dc.getLsbD 2) (dc.getLsbD 1) (dc.getLsbD 0)) rfl rfl ?_
    rw [unitEvents_displayControl, displayControlByte_of_reserved dc (h.displayControl dc hd)]; rfl

/-- So is the resend of `entry_mode`. -/
theorem AreWireRows.entryMode (t : Transport) {ses : Session} (h : ses.Legal) :
    AreWireRows t (frames t (ses.entryMode.toList.map fun em => (false, (entryModeSetCommand ||| em).toNat))) := by
  cases he : ses.entryMode with
  | none => exact .nil t
  | some em =>
    refine .row (.entryModeSet (em.getLsbD 1) (em.getLsbD 0)) rfl rfl ?_
    rw [unitEvents_entryModeSet, entryModeSetByte_of_reserved em (h.entryMode em he)]; rfl

/-! ## The events of an operation -/

theorem frames_filter (t : Transport) (us) : (frames t us).filter (fun e => !e.isPwm) = frames t us :=
  List.filter_eq_self.mpr fun e he => by simp [(frames_mem he).2]

theorem ddramAddress_le_of_legal {ses : Session} (h : ses.Legal) {col : Nat} (hc : columnProblem col ses = none)
    (row : Nat) : ddramAddress ses.cfg.numLines row col ≤ 0x7B := by
  have hcol : col < ses.cfg.columns := by
    by_contra hn
    simp [columnProblem, Nat.le_of_not_lt hn] at hc
  exact ddramAddress_le h.cfg.lines.2 (hcol.trans_le h.cfg.columns.2) row

/-- The protocol units of an admitted operation are well-formed wire rows. The rows of clear and home hold a wait besides. -/
theorem requestUnits_areWireRows {i : Instr} (hc : i ≠ .clear) (hh : i ≠ .home) {ses : Session} (h : ses.Legal)
    (hp : requestProblem i ses = none) : AreWireRows ses.cfg.transport (frames ses.cfg.transport (requestUnits i ses)) := by
  cases i with
  | clear => exact absurd rfl hc
  | home => exact absurd rfl hh
  | setCursor row col => exact .setCursor _ (ddramAddress_le_of_legal h hp row)
  | writeText text justify => exact .dataUnits _ _
  | writeRaw glyph row col => exact (AreWireRows.setCursor _ (ddramAddress_le_of_legal h hp row)).cons (.data _ glyph)
  | createChar location bitmap => exact (AreWireRows.glyphSlot _ location).cons (.dataUnits _ bitmap)
  | display | noDisplay | cursor | noCursor | blink | noBlink => exact .displayControl _ h
  | leftToRight | rightToLeft | autoscroll | noAutoscroll => exact .entryMode _ h
  | scrollLeft => exact .row (.cursorShift true false) rfl rfl (unitEvents_cursorShift _ _ _)
  | scrollRight => exact .row (.cursorShift true true) rfl rfl (unitEvents_cursorShift _ _ _)
  | _ => exact .nil _

/-- What an operation other than clear and home issues after its units is PWM calls only. -/
theorem requestTail_filter {i : Instr} (hc : i ≠ .clear) (hh : i ≠ .home) (ses : Session) :
    (requestTail i ses).filter (fun e => !e.isPwm) = [] := by
  cases i with
  | clear => exact absurd rfl hc
  | home => exact absurd rfl hh
  | enableBacklight n => exact List.filter_eq_nil_iff.mpr fun e he => by simp [(enableBacklightEvents_mem he).2]
  | disableBacklight => exact List.filter_eq_nil_iff.mpr fun e he => by simp [(disableBacklightEvents_mem he).2]
  | _ => rfl

/-- The events of an admitted operation, PWM calls aside, are those of well-formed wire rows. -/
theorem requestEvents_areWireRows (i : Instr) {ses : Session} (h : ses.Legal) (hp : requestProblem i ses = none) :
    AreWireRows ses.cfg.transport ((requestEvents i ses).filter fun e => !e.isPwm) := by
  rw [requestEvents, List.filter_append, frames_filter]
  by_cases hc : i = .clear
  · subst hc; exact .row .clearDisplay rfl rfl (unitEvents_clearDisplay _)
  by_cases hh : i = .home
  · subst hh; exact .row .returnHome rfl rfl (unitEvents_returnHome _)
  rw [requestTail_filter hc hh, List.append_nil]
  exact requestUnits_areWireRows hc hh h hp

/-- A request's checks look at the configuration alone. -/
theorem requestProblem_congr (i : Instr) {ses ses' : Session} (h : ses'.cfg = ses.cfg) :
    requestProblem i ses' = requestProblem i ses := by
  cases i with
  | setCursor _ col | writeRaw _ _ col => simp only [requestProblem, columnProblem, h]
  | _ => rfl

theorem requestWrites_isSome {i : Instr} {ses : Session} (h : ses.Legal) (hp : ses.phase = .ready) :
    (requestWrites i ses).isSome := by
  obtain ⟨hd, he⟩ := h.written hp
  cases i with
  | display | noDisplay | cursor | noCursor | blink | noBlink =>
    simpa [requestWrites, Session.updateDisplayControl] using hd
  | leftToRight | rightToLeft | autoscroll | noAutoscroll => simpa [requestWrites, Session.updateEntryMode] using he
  | _ => rfl

/-- Settles O52: an admitted operation issues `requestEvents`, which are wire rows on a legal session. -/
theorem operationsAreWellFormedWireRows : Obligations.OperationsAreWellFormedWireRows := by
  intro s t ses i hi hr hlegal hn h
  rw [exec_ready hi hr, requestOutcome] at h
  cases hp : requestProblem i ses with
  | some info =>
    rw [hp] at h
    obtain rfl := Host.Outcome.next.inj h
    exact ⟨[], [], by simp, by simp, rfl⟩
  | none =>
    obtain ⟨ses', hw⟩ := Option.isSome_iff_exists.mp (requestWrites_isSome (i := i) hlegal hr.2)
    rw [hp, hw] at h
    obtain rfl := Host.Outcome.next.inj h
    have hcfg : ses'.cfg = ses.cfg := by rw [requestWrites_frame hw]
    have htrace : ses'.trace = ses.trace := by rw [requestWrites_frame hw]
    obtain ⟨units, hu, he⟩ :=
      requestEvents_areWireRows i (hlegal.afterWrites hw) ((requestProblem_congr i hcfg).trans hp)
    refine ⟨requestEvents i ses', units, ?_, hu, hcfg ▸ he⟩
    simp [State.attempted_of_no_fail hn, htrace]

end Sys2Proof.Machine
end

section
/-! SUPPORT. The order of requests (20_memory.md R57, R58): a step takes the oldest unit, and a register that is sent again is
sent whole. -/

namespace Sys2Proof.Machine

/-! ## Taking a unit -/

theorem takeUnit_of_pending {s : State} {u : RawUnit} {rest : List RawUnit} (h : s.pending = u :: rest) :
    takeUnit s = some (u, { s with pending := rest }) := by
  simp only [takeUnit, h]

/-- Settles O2: `step` takes the head unit and matches on what it decodes to. -/
theorem stepRunsDecodedInstruction : Obligations.StepRunsDecodedInstruction := by
  intro s u rest i hp hd
  simp only [step, takeUnit_of_pending hp, hd]

/-! ## Flags set twice, or cleared and set -/

theorem setFlag_setFlag (r flag : Byte) : setFlag (setFlag r flag) flag = setFlag r flag := by
  simp only [setFlag, BitVec.or_assoc, BitVec.or_self]

theorem setFlag_clearFlag (r flag : Byte) : setFlag (clearFlag r flag) flag = setFlag r flag := by
  ext k hk
  simp only [setFlag, clearFlag, BitVec.getElem_or, BitVec.getElem_and, BitVec.getElem_not]
  cases flag[k] <;> simp

/-! ## Resending `display_control` -/

/-- The session after `display_control` is written and sent whole, no call failing (10_state.md R27). -/
def Session.resent (ses : Session) (v : Byte) : Session :=
  { ses with
    displayControl := some v
    trace := ses.trace ++ frames ses.cfg.transport [(false, (displayControlCommand ||| v).toNat)] }

/-- An update of `display_control` in which no call fails leaves the machine ready for the next request, and no answer that
fails is left for it. -/
theorem runReady_updateDisplayControl_resends {s : State} {ses : Session} {dc : Byte} (h : Ready s ses)
    (hd : ses.displayControl = some dc) (hn : NoCallFails s) (f : Byte → Byte) :
    ∃ t, runReady s noCheck (Sequencer.updateDisplayControl f) = .next t ∧ Ready t (ses.resent (f dc)) ∧ NoCallFails t := by
  rw [runReady_admitted h.1 h.2 rfl, Sequencer.outcome_updateDisplayControl hd, State.attempted_of_no_fail hn]
  exact ⟨_, rfl, ⟨rfl, h.2⟩, fun hm => hn (List.mem_of_mem_drop hm)⟩

/-- `display()` (43_operations.md R220). -/
theorem exec_display_resends {s : State} {ses : Session} {dc : Byte} (h : Ready s ses) (hd : ses.displayControl = some dc)
    (hn : NoCallFails s) :
    ∃ t, exec .display s = .next t ∧ Ready t (ses.resent (setFlag dc displayOnFlag)) ∧ NoCallFails t :=
  runReady_updateDisplayControl_resends h hd hn _

/-- `no_display()` (R221). -/
theorem exec_noDisplay_resends {s : State} {ses : Session} {dc : Byte} (h : Ready s ses)
    (hd : ses.displayControl = some dc) (hn : NoCallFails s) :
    ∃ t, exec .noDisplay s = .next t ∧ Ready t (ses.resent (clearFlag dc displayOnFlag)) ∧ NoCallFails t :=
  runReady_updateDisplayControl_resends h hd hn _

/-- Settles O24: `display()` sets the bit whatever it was, so the second resend carries the value that setting it once
gives. -/
theorem displayTwiceResendsTwice : Obligations.DisplayTwiceResendsTwice := by
  intro s ses dc h hd hn
  constructor
  · obtain ⟨s1, he1, hr1, hn1⟩ := exec_display_resends h hd hn
    obtain ⟨s2, he2, hr2, -⟩ := exec_display_resends hr1 rfl hn1
    rw [setFlag_setFlag] at hr2
    exact ⟨s1, s2, he1, he2, hr2.1⟩
  · obtain ⟨s1, he1, hr1, hn1⟩ := exec_noDisplay_resends h hd hn
    obtain ⟨s2, he2, hr2, -⟩ := exec_display_resends hr1 rfl hn1
    rw [setFlag_clearFlag] at hr2
    exact ⟨s1, s2, he1, he2, hr2.1⟩

end Sys2Proof.Machine
end

section
/-! SUPPORT. The decoder reads what the encoder writes: a round trip for every instruction, every wire word by its highest
set bit, and requests with any of their optional arguments omitted. -/

namespace Sys2Proof

/-! ## Every instruction -/

/-- Settles O5, one law of the family RoundTrip for each row. -/
theorem decodeOfEncode : Obligations.DecodeOfEncode := by
  intro i
  cases i with
  | clearDisplay => exact Laws.RoundTrip.clearDisplay
  | returnHome => exact Laws.RoundTrip.returnHome
  | entryModeSet increment shift => exact Laws.RoundTrip.entryModeSet increment shift
  | displayControl d c b => exact Laws.RoundTrip.displayControl d c b
  | cursorShift move right => exact Laws.RoundTrip.cursorShift move right
  | functionSet dl n f => exact Laws.RoundTrip.functionSet dl n f
  | setCgramAddr address => exact Laws.RoundTrip.setCgramAddr address
  | setDdramAddr address => exact Laws.RoundTrip.setDdramAddr address
  | dataWrite value => exact Laws.RoundTrip.dataWrite value
  | handshakeNibble3 => exact Laws.RoundTrip.handshakeNibble3
  | handshakeNibble2 => exact Laws.RoundTrip.handshakeNibble2
  | constructGpio rs en pins bl rw columns lines dot =>
    exact Laws.RoundTrip.constructGpio rs en pins bl rw columns lines dot
  | constructI2c address columns lines dot => exact Laws.RoundTrip.constructI2c address columns lines dot
  | clear => exact Laws.RoundTrip.clear
  | home => exact Laws.RoundTrip.home
  | setCursor row col => exact Laws.RoundTrip.setCursor row col
  | writeText text justify => exact Laws.RoundTrip.writeText text justify
  | writeRaw glyph row col => exact Laws.RoundTrip.writeRaw glyph row col
  | createChar location bitmap => exact Laws.RoundTrip.createChar location bitmap
  | display => exact Laws.RoundTrip.display
  | noDisplay => exact Laws.RoundTrip.noDisplay
  | cursor => exact Laws.RoundTrip.cursor
  | noCursor => exact Laws.RoundTrip.noCursor
  | blink => exact Laws.RoundTrip.blink
  | noBlink => exact Laws.RoundTrip.noBlink
  | scrollLeft => exact Laws.RoundTrip.scrollLeft
  | scrollRight => exact Laws.RoundTrip.scrollRight
  | leftToRight => exact Laws.RoundTrip.leftToRight
  | rightToLeft => exact Laws.RoundTrip.rightToLeft
  | autoscroll => exact Laws.RoundTrip.autoscroll
  | noAutoscroll => exact Laws.RoundTrip.noAutoscroll
  | enableBacklight intensity => exact Laws.RoundTrip.enableBacklight intensity
  | disableBacklight => exact Laws.RoundTrip.disableBacklight
  | cleanup => exact Laws.RoundTrip.cleanup
  | reservedRequest17 => exact Laws.RoundTrip.reservedRequest17
  | reservedRequest18 low => exact Laws.RoundTrip.reservedRequest18 low

/-! ## Wire words -/

theorem decode_wire (u : BitVec 9) : decode (.wire u.toNat) = decodeWire u := by
  rw [decode, if_pos u.isLt, BitVec.ofNat_toNat, BitVec.setWidth_eq]

theorem decode_wire_of_wide {word : Nat} (h : 2 ^ 9 ≤ word) : decode (.wire word) = .error .wordTooWide :=
  if_neg (Nat.not_lt.mpr h)

/-- The row whose pattern is bit `k` alone and whose mask is bits 8 down to `k` holds the words with highest set bit `k`
(30_encoding.md R74). -/
theorem matchesRow_iff_log2 {u : BitVec 9} (hu : u.toNat ≠ 0) {k : Nat} (hk : k < 9) :
    matchesRow u (BitVec.allOnes 9 <<< k) (BitVec.twoPow 9 k) = true ↔ Nat.log2 u.toNat = k := by
  have hpow : 2 ^ k < 2 ^ 9 := Nat.pow_lt_pow_right (by decide) hk
  have hle : u.toNat / 2 ^ k * 2 ^ k < 2 ^ 9 := (Nat.div_mul_le_self _ _).trans_lt u.isLt
  have hmask : (u &&& BitVec.allOnes 9 <<< k).toNat = u.toNat / 2 ^ k * 2 ^ k := by
    rw [← BitVec.shiftLeft_ushiftRight, BitVec.toNat_shiftLeft, BitVec.toNat_ushiftRight, Nat.shiftRight_eq_div_pow,
      Nat.shiftLeft_eq, Nat.mod_eq_of_lt hle]
  calc matchesRow u (BitVec.allOnes 9 <<< k) (BitVec.twoPow 9 k) = true
      ↔ u.toNat / 2 ^ k * 2 ^ k = 2 ^ k := by
        rw [matchesRow, beq_iff_eq, ← BitVec.toNat_inj, hmask, BitVec.toNat_twoPow, Nat.mod_eq_of_lt hpow]
    _ ↔ u.toNat / 2 ^ k = 1 := by rw [Nat.mul_eq_right (Nat.two_pow_pos k).ne']
    _ ↔ 2 ^ k ≤ u.toNat ∧ u.toNat < 2 ^ (k + 1) := by rw [Nat.div_eq_iff (Nat.two_pow_pos k)]; omega
    _ ↔ Nat.log2 u.toNat = k := (Nat.log2_eq_iff hu).symm

/-- A word of a row is the row's pattern with the word's own fields. -/
theorem pattern_or_fields {n : Nat} {u mask pattern : BitVec n} (h : matchesRow u mask pattern = true) (fields : BitVec n) :
    pattern ||| u &&& fields = u &&& (mask ||| fields) := by
  rw [BitVec.and_or_distrib_left, ← eq_of_beq h]

theorem flagBit_getLsbD (u : BitVec 9) (k : Nat) : flagBit (u.getLsbD k) k = u &&& BitVec.twoPow 9 k :=
  (BitVec.and_twoPow u k).symm

theorem setWidth_setWidth_eq_and (u : BitVec 9) (k : Nat) :
    (u.setWidth k).setWidth 9 = u &&& (BitVec.allOnes k).setWidth 9 := by
  ext i hi
  simp [hi, Bool.and_comm]

/-- Encoding an instruction that has the pattern of the word's row and fields of the word gives the word, less its bits
outside them. -/
theorem encode_eq_of_fields {i : Instr} {u mask pattern fields : BitVec 9} (h : matchesRow u mask pattern = true)
    (hi : encode i = .wire (pattern ||| u &&& fields).toNat) : encode i = .wire (u.toNat &&& (mask ||| fields).toNat) := by
  rw [hi, pattern_or_fields h, BitVec.toNat_and]

/-- The same where mask and fields leave no bit out. -/
theorem encode_eq_of_all_fields {i : Instr} {u mask pattern fields : BitVec 9} (h : matchesRow u mask pattern = true)
    (hall : mask ||| fields = BitVec.allOnes 9) (hi : encode i = .wire (pattern ||| u &&& fields).toNat) :
    encode i = .wire u.toNat := by
  rw [hi, pattern_or_fields h, hall, BitVec.and_allOnes]

/-! An encoding written from the fields of a word: its row's pattern with these fields. -/

theorem encode_clearDisplay_fields (u : BitVec 9) : encode .clearDisplay = .wire (0x001#9 ||| u &&& 0x000#9).toNat := by
  rw [BitVec.and_zero]; rfl

theorem encode_returnHome_fields (u : BitVec 9) : encode .returnHome = .wire (0x002#9 ||| u &&& 0x000#9).toNat := by
  rw [BitVec.and_zero]; rfl

theorem encode_entryModeSet_fields (u : BitVec 9) :
    encode (.entryModeSet (u.getLsbD 1) (u.getLsbD 0)) = .wire (0x004#9 ||| u &&& 0x003#9).toNat := by
  simp only [encode, encodeWire, Option.getD_some, flagBit_getLsbD, BitVec.or_assoc, ← BitVec.and_or_distrib_left]; rfl

theorem encode_displayControl_fields (u : BitVec 9) :
    encode (.displayControl (u.getLsbD 2) (u.getLsbD 1) (u.getLsbD 0)) = .wire (0x008#9 ||| u &&& 0x007#9).toNat := by
  simp only [encode, encodeWire, Option.getD_some, flagBit_getLsbD, BitVec.or_assoc, ← BitVec.and_or_distrib_left]; rfl

theorem encode_cursorShift_fields (u : BitVec 9) :
    encode (.cursorShift (u.getLsbD 3) (u.getLsbD 2)) = .wire (0x010#9 ||| u &&& 0x00C#9).toNat := by
  simp only [encode, encodeWire, Option.getD_some, flagBit_getLsbD, BitVec.or_assoc, ← BitVec.and_or_distrib_left]; rfl

theorem encode_functionSet_fields (u : BitVec 9) :
    encode (.functionSet (u.getLsbD 4) (u.getLsbD 3) (u.getLsbD 2)) = .wire (0x020#9 ||| u &&& 0x01C#9).toNat := by
  simp only [encode, encodeWire, Option.getD_some, flagBit_getLsbD, BitVec.or_assoc, ← BitVec.and_or_distrib_left]; rfl

theorem encode_setCgramAddr_fields (u : BitVec 9) :
    encode (.setCgramAddr (u.setWidth 6)) = .wire (0x040#9 ||| u &&& 0x03F#9).toNat := by
  simp only [encode, encodeWire, Option.getD_some, setWidth_setWidth_eq_and]; rfl

theorem encode_setDdramAddr_fields (u : BitVec 9) :
    encode (.setDdramAddr (u.setWidth 7)) = .wire (0x080#9 ||| u &&& 0x07F#9).toNat := by
  simp only [encode, encodeWire, Option.getD_some, setWidth_setWidth_eq_and]; rfl

theorem encode_dataWrite_fields (u : BitVec 9) :
    encode (.dataWrite (u.setWidth 8)) = .wire (0x100#9 ||| u &&& 0x0FF#9).toNat := by
  simp only [encode, encodeWire, Option.getD_some, setWidth_setWidth_eq_and]; rfl

/-- Settles O6: each test of the decoder is one on the highest set bit (`matchesRow_iff_log2`), and what a row's operands
leave out of the word are its don't-care bits. -/
theorem wireWordsSelectedByHighestBit : Obligations.WireWordsSelectedByHighestBit := by
  refine ⟨rfl, fun _ => decode_wire_of_wide, fun w hpos hlt => ?_⟩
  obtain ⟨u, rfl⟩ : ∃ u : BitVec 9, u.toNat = w := ⟨.ofNat 9 w, by rw [BitVec.toNat_ofNat, Nat.mod_eq_of_lt hlt]⟩
  have highest {k : Nat} (hk : k < 9) := matchesRow_iff_log2 hpos.ne' hk
  rw [decode_wire, decodeWire]
  split_ifs with h0 h1 h2 h3 h4 h5 h6 h7 h8
  · exact ⟨_, rfl, (highest (k := 0) (by decide)).mp h0, encode_eq_of_all_fields h0 rfl (encode_clearDisplay_fields u)⟩
  · exact ⟨_, rfl, (highest (k := 1) (by decide)).mp h1, encode_eq_of_fields h1 (encode_returnHome_fields u)⟩
  · exact ⟨_, rfl, (highest (k := 2) (by decide)).mp h2, encode_eq_of_all_fields h2 rfl (encode_entryModeSet_fields u)⟩
  · exact ⟨_, rfl, (highest (k := 3) (by decide)).mp h3, encode_eq_of_all_fields h3 rfl (encode_displayControl_fields u)⟩
  · exact ⟨_, rfl, (highest (k := 4) (by decide)).mp h4, encode_eq_of_fields h4 (encode_cursorShift_fields u)⟩
  · exact ⟨_, rfl, (highest (k := 5) (by decide)).mp h5, encode_eq_of_fields h5 (encode_functionSet_fields u)⟩
  · exact ⟨_, rfl, (highest (k := 6) (by decide)).mp h6, encode_eq_of_all_fields h6 rfl (encode_setCgramAddr_fields u)⟩
  · exact ⟨_, rfl, (highest (k := 7) (by decide)).mp h7, encode_eq_of_all_fields h7 rfl (encode_setDdramAddr_fields u)⟩
  · exact ⟨_, rfl, (highest (k := 8) (by decide)).mp h8, encode_eq_of_all_fields h8 rfl (encode_dataWrite_fields u)⟩
  · have hk : Nat.log2 u.toNat < 9 := (Nat.log2_lt hpos.ne').mpr u.isLt
    have row := (highest hk).mpr rfl
    interval_cases Nat.log2 u.toNat
    exacts [absurd row h0, absurd row h1, absurd row h2, absurd row h3, absurd row h4, absurd row h5, absurd row h6,
      absurd row h7, absurd row h8]

/-- A row's pattern bit beside an operand of all lower bits is a sum. -/
theorem twoPow_or_setWidth_toNat {k : Nat} (hk : k < 9) (a : BitVec k) :
    (BitVec.twoPow 9 k ||| a.setWidth 9).toNat = 2 ^ k + a.toNat := by
  have ha : a.toNat % 2 ^ 9 = a.toNat := Nat.mod_eq_of_lt (a.isLt.trans (Nat.pow_lt_pow_right (by decide) hk))
  have hpow : 2 ^ k % 2 ^ 9 = 2 ^ k := Nat.mod_eq_of_lt (Nat.pow_lt_pow_right (by decide) hk)
  have hor := Nat.two_pow_add_eq_or_of_lt a.isLt 1
  rw [Nat.mul_one] at hor
  rw [BitVec.toNat_or, BitVec.toNat_twoPow, BitVec.toNat_setWidth, ha, hpow, hor]

/-- Settles O7: flags by their values, an address or a byte below its row's pattern bit by `twoPow_or_setWidth_toNat`. -/
theorem wireRowsHaveTheirBytes : Obligations.WireRowsHaveTheirBytes := by
  refine ⟨rfl, rfl, by decide, by decide, by decide, by decide, fun a => ?_, fun a => ?_, fun v => ?_⟩
  · exact congrArg RawUnit.wire (twoPow_or_setWidth_toNat (by decide) a)
  · exact congrArg RawUnit.wire (twoPow_or_setWidth_toNat (by decide) a)
  · exact congrArg RawUnit.wire (twoPow_or_setWidth_toNat (by decide) v)

/-! ## Optional constructor arguments (30_encoding.md R97) -/

/-- An optional argument given by its name, or omitted. -/
def namedOperand (a : OptionalArgument) (value : Option Nat) : List Operand := value.toList.map (.keyword a)

/-- Operands that are all given by a name other than this argument's. -/
def NameOthers (a : OptionalArgument) (operands : List Operand) : Prop := ∀ o ∈ operands, ∃ b v, b ≠ a ∧ o = .keyword b v

theorem NameOthers.named {a b : OptionalArgument} (h : b ≠ a) (value : Option Nat) :
    NameOthers a (namedOperand b value) := by
  intro o ho
  obtain ⟨v, -, rfl⟩ := List.mem_map.mp ho
  exact ⟨b, v, h, rfl⟩

theorem NameOthers.append {a : OptionalArgument} {os ps : List Operand} (ho : NameOthers a os) (hp : NameOthers a ps) :
    NameOthers a (os ++ ps) :=
  List.forall_mem_append.mpr ⟨ho, hp⟩

theorem takeNat_of_nameOthers {a : OptionalArgument} {rest : List Operand} (h : NameOthers a rest) (default : Nat) :
    takeNat a default rest = (default, rest) := by
  cases rest with
  | nil => rfl
  | cons o rest =>
    obtain ⟨b, v, hb, rfl⟩ := h o List.mem_cons_self
    exact takeNat_named_other hb default v rest

theorem takePin_of_nameOthers {a : OptionalArgument} {rest : List Operand} (h : NameOthers a rest) :
    takePin a rest = (none, rest) := by
  cases rest with
  | nil => rfl
  | cons o rest =>
    obtain ⟨b, v, hb, rfl⟩ := h o List.mem_cons_self
    exact takePin_named_other hb v rest

theorem takeNat_namedOperand {a : OptionalArgument} {rest : List Operand} (h : NameOthers a rest) (default : Nat)
    (value : Option Nat) : takeNat a default (namedOperand a value ++ rest) = (value.getD default, rest) := by
  cases value with
  | none => exact takeNat_of_nameOthers h default
  | some v => exact takeNat_named a default v rest

theorem takePin_namedOperand {a : OptionalArgument} {rest : List Operand} (h : NameOthers a rest) (pin : Option Pin) :
    takePin a (namedOperand a pin ++ rest) = (pin, rest) := by
  cases pin with
  | none => exact takePin_of_nameOthers h
  | some p => exact takePin_named a p rest

/-- `columns`, `lines` and `dot_size`, each given by its name or omitted. -/
def geometryOperands (columns lines dot : Option Nat) : List Operand :=
  namedOperand .columns columns ++ (namedOperand .lines lines ++ namedOperand .dotSize dot)

theorem decodeGeometry_geometryOperands (k : Nat → Nat → Nat → Instr) (columns lines dot : Option Nat) :
    decodeGeometry k (geometryOperands columns lines dot) = .ok (k (columns.getD 16) (lines.getD 1) (dot.getD 0)) := by
  have hlines : NameOthers .lines (namedOperand .dotSize dot) := .named (by decide) dot
  have hcolumns : NameOthers .columns (namedOperand .lines lines ++ namedOperand .dotSize dot) :=
    .append (.named (by decide) lines) (.named (by decide) dot)
  have hdot := takeNat_namedOperand (a := .dotSize) (rest := []) (by simp [NameOthers]) defaultDotSize dot
  rw [List.append_nil] at hdot
  simp only [decodeGeometry, geometryOperands, takeNat_namedOperand hcolumns, takeNat_namedOperand hlines, hdot]
  rfl

theorem nameOthers_geometryOperands {a : OptionalArgument} (h : a = .backlightPin ∨ a = .readWritePin)
    (columns lines dot : Option Nat) : NameOthers a (geometryOperands columns lines dot) := by
  rcases h with rfl | rfl <;>
    exact .append (.named (by decide) columns) (.append (.named (by decide) lines) (.named (by decide) dot))

theorem decodeGpioOperands_named (rs en : Pin) (pins : List Pin) (bl rw : Option Pin) (columns lines dot : Option Nat) :
    decodeGpioOperands (.nat rs :: .nat en :: .list pins ::
        (namedOperand .backlightPin bl ++ (namedOperand .readWritePin rw ++ geometryOperands columns lines dot))) =
      .ok (.constructGpio rs en pins bl rw (columns.getD 16) (lines.getD 1) (dot.getD 0)) := by
  have hrw := nameOthers_geometryOperands (.inr rfl) columns lines dot
  have hbl : NameOthers .backlightPin (namedOperand .readWritePin rw ++ geometryOperands columns lines dot) :=
    .append (.named (by decide) rw) (nameOthers_geometryOperands (.inl rfl) columns lines dot)
  simp only [decodeGpioOperands, takePin_namedOperand hbl, takePin_namedOperand hrw, decodeGeometry_geometryOperands]

/-- Settles O58: each argument is taken from the head of the operands or, since those left name later arguments, omitted. -/
theorem omittedArgumentsTakeDefaults : Obligations.OmittedArgumentsTakeDefaults := by
  constructor
  · intro a columns lines dot
    rw [List.append_assoc]
    exact decodeGeometry_geometryOperands (.constructI2c a) columns lines dot
  · intro rs en pins bl rw columns lines dot
    simp only [List.append_assoc]
    exact decodeGpioOperands_named rs en pins bl rw columns lines dot

/-! ## Requests -/

/-- Settles O8: operands given in full are those of an encoding (`decodeOfEncode`), the others take their defaults
(`omittedArgumentsTakeDefaults`). -/
theorem requestOpcodesAreRead : Obligations.RequestOpcodesAreRead := by
  obtain ⟨i2cOmitted, gpioOmitted⟩ := omittedArgumentsTakeDefaults
  refine ⟨fun rs en pins bl rw columns lines dot => ⟨decodeOfEncode (.constructGpio rs en pins bl rw columns lines dot),
      gpioOmitted rs en pins none none none none none⟩,
    fun a columns lines dot => ⟨decodeOfEncode (.constructI2c a columns lines dot), i2cOmitted a none none none⟩,
    fun row col => decodeOfEncode (.setCursor row col),
    fun text => ⟨decodeOfEncode (.writeText text .left), decodeOfEncode (.writeText text .right),
      decodeOfEncode (.writeText text .center)⟩,
    fun glyph row col => decodeOfEncode (.writeRaw glyph row col),
    fun location bitmap => decodeOfEncode (.createChar location bitmap),
    fun intensity => decodeOfEncode (.enableBacklight intensity), fun row hrow => ?_⟩
  have hencode : encode row.2 = .request row.1 [] := by revert row; decide
  rw [← hencode]
  exact decodeOfEncode row.2

/-- A reserved opcode is read from its bits alone. -/
theorem decode_reserved18 {k : Nat} (hk : k < 8) (operands : List Operand) :
    decode (.request (0x18 + k) operands) = .ok (.reservedRequest18 (BitVec.ofNat 3 k)) := by
  interval_cases k <;> rfl

theorem decode_request_of_wide {opcode : Nat} (h : 2 ^ 5 ≤ opcode) (operands : List Operand) :
    decode (.request opcode operands) = .error .wordTooWide :=
  if_neg (Nat.not_lt.mpr h)

/-- Settles O9. -/
theorem reservedOpcodesDecode : Obligations.ReservedOpcodesDecode :=
  ⟨fun _ => rfl, fun _ operands hk => decode_reserved18 hk operands, fun _ operands h => decode_request_of_wide h operands⟩

/-- Settles O4: each word is the encoding of its instruction, but for the constructor with its trailing arguments
omitted. -/
theorem sampleWordsDecode : Obligations.SampleWordsDecode :=
  ⟨decodeOfEncode .clearDisplay, decodeOfEncode (.entryModeSet true true), decodeOfEncode (.displayControl true false true),
    decodeOfEncode (.functionSet false true false), decodeOfEncode (.setDdramAddr 0x45), decodeOfEncode (.dataWrite 0x48),
    decodeOfEncode .handshakeNibble3, decodeOfEncode (.setCursor 1 5), decodeOfEncode (.writeText [0x48, 0x69] .center),
    omittedArgumentsTakeDefaults.1 0x27 none none none, decodeOfEncode .reservedRequest17,
    decodeOfEncode (.reservedRequest18 2)⟩

end Sys2Proof
end

section
/-! SUPPORT. What the transports issue: a wire row's own events, and none that the session's transport may not issue
(30_encoding.md R71, 40_transport.md R124). -/

namespace Sys2Proof.Machine

/-- Settles O25, the rule of a wire row in a live phase. -/
theorem wireRowsAreSent : Obligations.WireRowsAreSent := fun _ _ _ hl hi => exec_wireRow hi hl

/-! ## The events a legal transport issues -/

/-- Every event of the list is one the transport may issue. -/
def AllBelong (t : Transport) (es : List Event) : Prop := ∀ e ∈ es, e.BelongsTo t

theorem AllBelong.nil (t : Transport) : AllBelong t [] := nofun

theorem AllBelong.append {t : Transport} {es fs : List Event} (he : AllBelong t es) (hf : AllBelong t fs) :
    AllBelong t (es ++ fs) :=
  List.forall_mem_append.mpr ⟨he, hf⟩

theorem AllBelong.singleton {t : Transport} {e : Event} (h : e.BelongsTo t) : AllBelong t [e] :=
  List.forall_mem_singleton.mpr h

theorem wait_belongs (t : Transport) (us : Nat) : Event.BelongsTo (.wait us) t := by cases t <;> trivial

theorem AllBelong.wait (t : Transport) (us : Nat) : AllBelong t [.wait us] := .singleton (wait_belongs t us)

/-- The pins a GPIO transport drives both ways. -/
def GpioTransport.linePins (g : GpioTransport) : List Pin :=
  [g.rsPin, g.enablePin, g.dataPins.d4, g.dataPins.d5, g.dataPins.d6, g.dataPins.d7]

theorem GpioTransport.pins_eq (g : GpioTransport) : g.pins = g.linePins ++ g.backlightPin.toList ++ g.rwPin.toList := rfl

/-- A driven line is none of the optional pins, the pins being distinct (41_controller_fsm.md R161). -/
theorem GpioTransport.linePin_distinct {g : GpioTransport} (h : g.pins.Nodup) {p : Pin} (hp : p ∈ g.linePins) :
    p ∈ g.pins ∧ some p ≠ g.backlightPin ∧ some p ≠ g.rwPin := by
  rw [pins_eq, List.append_assoc, List.nodup_append] at h
  obtain ⟨-, -, hne⟩ := h
  refine ⟨by simp [pins_eq, hp], fun hbl => ?_, fun hrw => ?_⟩
  · exact hne p hp p (by simp [← hbl]) rfl
  · exact hne p hp p (by simp [← hrw]) rfl

theorem GpioTransport.rwPin_distinct {g : GpioTransport} (h : g.pins.Nodup) {p : Pin} (hp : g.rwPin = some p) :
    p ∈ g.pins ∧ some p ≠ g.backlightPin := by
  rw [pins_eq, List.nodup_append] at h
  obtain ⟨-, -, hne⟩ := h
  exact ⟨by simp [pins_eq, hp], fun hbl => hne p (by simp [← hbl]) p (by simp [hp]) rfl⟩

/-- A driven line may have either level. -/
theorem linePins_belong {g : GpioTransport} (h : g.pins.Nodup) :
    ∀ p ∈ g.linePins, ∀ level, Event.BelongsTo (.pin p level) (.gpio g) := by
  intro p hp level
  obtain ⟨hmem, hbl, hrw⟩ := g.linePin_distinct h hp
  exact ⟨hmem, hbl, fun h => absurd h hrw⟩

/-- Every expander byte has the backlight bit 1 and RW 0 (30_encoding.md R71). -/
theorem expanderWrite_belongs (a : BusAddress) (rs : Level) (n : Nibble) (e : Level) :
    Event.BelongsTo (.i2cWrite a (expanderByte rs n e)) (.i2c a) :=
  ⟨rfl, by revert rs n e; decide⟩

theorem nibbleEvents_belong {t : Transport} (h : t.Legal) (rs : Level) (n : Nibble) : AllBelong t (nibbleEvents t rs n) := by
  cases t with
  | gpio g =>
    have lines := linePins_belong h.1
    simp only [GpioTransport.linePins, List.forall_mem_cons] at lines
    obtain ⟨hrs, hen, h4, h5, h6, h7, -⟩ := lines
    simp only [AllBelong, nibbleEvents, pulseEvents, List.cons_append, List.nil_append, List.forall_mem_cons, wait_belongs,
      hrs, hen, h4, h5, h6, h7, true_and]
    nofun
  | i2c a =>
    simp only [AllBelong, nibbleEvents, List.forall_mem_cons, expanderWrite_belongs, wait_belongs, true_and]
    nofun

theorem sendEvents_belong {t : Transport} (h : t.Legal) (rs : Level) (v : Nat) : AllBelong t (sendEvents t rs v) :=
  (nibbleEvents_belong h _ _).append (nibbleEvents_belong h _ _)

theorem frames_belong {t : Transport} (h : t.Legal) (us) : AllBelong t (frames t us) := by
  intro e he
  obtain ⟨u, -, hu⟩ := List.mem_flatMap.mp he
  exact sendEvents_belong h _ _ e hu

theorem unitEvents_belong {t : Transport} (h : t.Legal) (i : Instr) : AllBelong t (unitEvents t i) := by
  unfold unitEvents
  split
  · exact nibbleEvents_belong h _ _
  · exact nibbleEvents_belong h _ _
  · exact (sendEvents_belong h _ _).append (.wait _ _)
  · exact (sendEvents_belong h _ _).append (.wait _ _)
  · split
    · exact sendEvents_belong h _ _
    · exact .nil t

/-! ## Backlight (40_transport.md R131) -/

theorem clampPercent_le (n : Int) : clampPercent n ≤ 100 := by
  unfold clampPercent
  split_ifs <;> omega

theorem pulseWidth_le (range : Nat) (n : Int) : pulseWidth range n ≤ range :=
  Nat.div_le_of_le_mul (Nat.mul_le_mul_right range (clampPercent_le n))

theorem enableBacklightEvents_belong (t : Transport) (n : Int) : AllBelong t (enableBacklightEvents t n) := by
  cases t with
  | i2c a => exact .nil _
  | gpio g =>
    intro e he
    obtain ⟨bl, hbl, rfl⟩ := List.mem_map.mp he
    exact ⟨(Option.mem_toList.mp hbl).symm, rfl, pulseWidth_le _ n⟩

theorem disableBacklightEvents_belong (t : Transport) : AllBelong t (disableBacklightEvents t) := by
  cases t with
  | i2c a => exact .nil _
  | gpio g =>
    intro e he
    obtain ⟨bl, hbl, rfl⟩ := List.mem_map.mp he
    exact ⟨(Option.mem_toList.mp hbl).symm, rfl⟩

theorem requestTail_belong (i : Instr) (ses : Session) : AllBelong ses.cfg.transport (requestTail i ses) := by
  cases i with
  | clear | home => exact .wait _ _
  | enableBacklight n => exact enableBacklightEvents_belong _ n
  | disableBacklight => exact disableBacklightEvents_belong _
  | _ => exact .nil _

theorem requestEvents_belong (i : Instr) {ses : Session} (h : ses.cfg.transport.Legal) :
    AllBelong ses.cfg.transport (requestEvents i ses) :=
  (frames_belong h _).append (requestTail_belong i ses)

/-! ## Construction and release -/

/-- A pin claimed at construction (40_transport.md R122): a driven line, or RW. -/
theorem claimedPin_distinct {g : GpioTransport} (h : g.pins.Nodup) {p : Pin}
    (hp : p ∈ g.rsPin :: g.enablePin :: g.rwPin.toList ++ [g.dataPins.d4, g.dataPins.d5, g.dataPins.d6, g.dataPins.d7]) :
    p ∈ g.pins ∧ some p ≠ g.backlightPin := by
  have hcases : p ∈ g.linePins ∨ g.rwPin = some p := by
    simp only [List.mem_append, List.mem_cons, Option.mem_toList] at hp
    simp only [GpioTransport.linePins, List.mem_cons]
    tauto
  rcases hcases with hline | hrw
  · obtain ⟨hmem, hbl, -⟩ := g.linePin_distinct h hline
    exact ⟨hmem, hbl⟩
  · exact g.rwPin_distinct h hrw

/-- The call that claims a resource and the call that releases it. -/
theorem claims_belong {t : Transport} (h : t.Legal) :
    ∀ c ∈ claims t, c.1.BelongsTo t ∧ (releaseEvent t c.2).BelongsTo t := by
  cases t with
  | i2c a =>
    intro c hc
    obtain rfl := List.mem_singleton.mp hc
    exact ⟨rfl, rfl⟩
  | gpio g =>
    intro c hc
    rcases List.mem_append.mp hc with hpin | hpwm
    · obtain ⟨p, hp, rfl⟩ := List.mem_map.mp hpin
      exact ⟨claimedPin_distinct h.1 hp, claimedPin_distinct h.1 hp⟩
    · cases hbl : g.backlightPin with
      | none => simp [hbl] at hpwm
      | some bl =>
        simp only [hbl, Option.isSome_some, if_true, List.mem_cons, List.not_mem_nil, or_false] at hpwm
        rcases hpwm with rfl | rfl <;> simp [Event.BelongsTo, releaseEvent, releasedBacklightPin, hbl]

theorem claimEvents_belong {t : Transport} (h : t.Legal) : AllBelong t (claimEvents t) := by
  intro e he
  obtain ⟨c, hc, rfl⟩ := List.mem_map.mp he
  exact (claims_belong h c hc).1

theorem releaseEvents_belong {t : Transport} (h : t.Legal) {rs : List Resource} (hrs : rs ⊆ allResources t) :
    AllBelong t (releaseEvents t rs) := by
  intro e he
  obtain ⟨r, hr, rfl⟩ := List.mem_map.mp he
  obtain ⟨c, hc, rfl⟩ := List.mem_map.mp (hrs (List.mem_reverse.mp hr))
  exact (claims_belong h c hc).2

/-- `begin` drives RW, where there is one, low alone (40_transport.md R124). -/
theorem beginEvents_belong {t : Transport} (h : t.Legal) : AllBelong t (beginEvents t) := by
  cases t with
  | i2c a => exact .nil _
  | gpio g =>
    have line := linePins_belong h.1
    refine List.forall_mem_cons.mpr ⟨line g.rsPin (by simp [GpioTransport.linePins]) _,
      List.forall_mem_cons.mpr ⟨line g.enablePin (by simp [GpioTransport.linePins]) _, fun e he => ?_⟩⟩
    obtain ⟨p, hp, rfl⟩ := List.mem_map.mp he
    obtain ⟨hmem, hbl⟩ := g.rwPin_distinct h.1 (Option.mem_toList.mp hp)
    exact ⟨hmem, hbl, fun _ => rfl⟩

theorem handshakeEvents_belong {t : Transport} (h : t.Legal) : AllBelong t (handshakeEvents t) := by
  have nibble (n) : AllBelong t (nibbleEvents t false n) := nibbleEvents_belong h false n
  exact (AllBelong.wait t _).append (beginEvents_belong h) |>.append (nibble _) |>.append (.wait t _) |>.append (nibble _)
    |>.append (.wait t _) |>.append (nibble _) |>.append (.wait t _) |>.append (nibble _)

theorem constructionEvents_belong {cfg : SessionConfig} (h : cfg.transport.Legal) :
    AllBelong cfg.transport (constructionEvents cfg) :=
  (claimEvents_belong h).append (handshakeEvents_belong h) |>.append (frames_belong h _) |>.append (frames_belong h _)
    |>.append (.wait _ _) |>.append (frames_belong h _)

/-! ## Traces -/

/-- Every event of the session's trace is one its transport may issue. -/
def Session.TraceBelongs (ses : Session) : Prop := AllBelong ses.cfg.transport ses.trace

/-- Issuing a part of a list of events that belong. -/
theorem Session.TraceBelongs.record {ses : Session} (h : ses.TraceBelongs) {es : List Event}
    (hes : AllBelong ses.cfg.transport es) (as : List Answer) : (ses.record (attempt es as)).TraceBelongs :=
  AllBelong.append h fun e he => hes e ((attempt_emitted_prefix es as).subset he)

theorem Session.TraceBelongs.afterWrites {i : Instr} {ses ses' : Session} (h : ses.TraceBelongs)
    (hw : requestWrites i ses = some ses') : ses'.TraceBelongs := by
  rw [requestWrites_frame hw]; exact h

theorem State.TracesBelong.finish {s : State} (h : s.TracesBelong) {ses : Session} (hses : ses.TraceBelongs) (as r) :
    (s.finish ses as r).TracesBelong :=
  ⟨fun _ hs => Option.some.inj hs ▸ hses, h.2⟩

theorem State.TracesBelong.attempted {s : State} (h : s.TracesBelong) {ses : Session} (hses : ses.TraceBelongs)
    {es : List Event} (hes : AllBelong ses.cfg.transport es) : (s.attempted ses es).TracesBelong :=
  h.finish (hses.record hes s.answers) _ _

theorem State.TracesBelong.refuse {s : State} (h : s.TracesBelong) (r : RefusalReason) : (s.refuse r).TracesBelong := by
  refine ⟨fun ses hs => ?_, h.2⟩
  obtain ⟨old, ho, rfl⟩ := Option.map_eq_some_iff.mp hs
  exact h.1 old ho

theorem constructedSession_traceBelongs {cfg : SessionConfig} (h : cfg.Legal) (as : List Answer) :
    (constructedSession cfg as).TraceBelongs := fun e he =>
  constructionEvents_belong h.transport e ((attempt_emitted_prefix _ as).subset he)

theorem State.TracesBelong.constructed {s : State} {cfg : SessionConfig} (h : s.TracesBelong) (hc : cfg.Legal) :
    (s.constructed cfg).TracesBelong := by
  refine ⟨fun _ hs => Option.some.inj hs ▸ constructedSession_traceBelongs hc s.answers, fun ses hm => ?_⟩
  rcases List.mem_append.mp hm with hm | hm
  · exact h.2 ses hm
  · exact h.1 ses (Option.mem_toList.mp hm)

/-- A legal session has claimed resources of its own transport alone (10_state.md R32). -/
theorem Session.Legal.claimed_subset {ses : Session} (h : ses.Legal) : ses.claimed ⊆ allResources ses.cfg.transport := by
  rcases h.phase with hp | hp | hp
  · rw [h.claimedReady hp]; exact List.Subset.refl _
  · exact (h.claimedFailed hp).subset
  · rw [h.claimedReleased hp]; exact List.nil_subset _

theorem Session.TraceBelongs.cleanedUp {ses : Session} (h : ses.TraceBelongs) (hl : ses.Legal) (as : List Answer) :
    (ses.cleanedUp as).TraceBelongs :=
  AllBelong.append h (releaseEvents_belong hl.cfg.transport hl.claimed_subset)

/-! ## Cleanup by phase (44_session.md R283) -/

theorem exec_cleanup_no_session {s : State} (hs : s.session = none) : exec .cleanup s = .next (s.refuse .notReady) := by
  change execCleanup s = _
  simp only [execCleanup, hs]

theorem exec_cleanup_of_released {s : State} {ses : Session} (hs : s.session = some ses) (hp : ses.phase = .released) :
    exec .cleanup s = .next (s.finish ses s.answers .ok) := by
  change execCleanup s = _
  simp only [execCleanup, hs, hp]

theorem exec_cleanup_releases {s : State} {ses : Session} (hs : s.session = some ses)
    (hp : ses.phase = .ready ∨ ses.phase = .failed) :
    exec .cleanup s = .next (s.finish (ses.cleanedUp s.answers)
      (s.answers.drop (callCount (releaseEvents ses.cfg.transport ses.claimed)))
      (resultOf (attempt (releaseEvents ses.cfg.transport ses.claimed) s.answers).failing)) := by
  have hrelease := Sequencer.outcome_release s { ses with phase := .released }
  change execCleanup s = _
  rcases hp with hp | hp <;> simp only [execCleanup, hs, hp] <;> exact hrelease

/-! ## Every instruction keeps the traces within their transports -/

theorem exec_needsReady_belongs {i : Instr} (hi : i.needsReady = true) {s : State} (hl : s.Legal) (hb : s.TracesBelong) :
    ∃ t, exec i s = .next t ∧ t.TracesBelong := by
  by_cases h : ∃ ses, Ready s ses
  · obtain ⟨ses, hr⟩ := h
    have hses := hb.1 ses hr.1
    rw [exec_ready hi hr, requestOutcome]
    cases requestProblem i ses with
    | some info => exact ⟨_, rfl, hb.finish hses _ _⟩
    | none =>
      cases hw : requestWrites i ses with
      | none => exact ⟨_, rfl, hb.refuse _⟩
      | some ses' =>
        have hlegal := (hl.current ses hr.1).afterWrites hw
        exact ⟨_, rfl, hb.attempted (Session.TraceBelongs.afterWrites hses hw) (requestEvents_belong i hlegal.cfg.transport)⟩
  · exact ⟨_, exec_needsReady_refused hi fun ses hs hp => h ⟨ses, hs, hp⟩, hb.refuse _⟩

theorem exec_wireRow_belongs {i : Instr} (hi : i.isWireUnit = true) {s : State} (hl : s.Legal) (hb : s.TracesBelong) :
    ∃ t, exec i s = .next t ∧ t.TracesBelong := by
  by_cases h : ∃ ses, Live s ses
  · obtain ⟨ses, hlive⟩ := h
    have hevents := unitEvents_belong (hl.current ses hlive.1).cfg.transport i
    exact ⟨_, exec_wireRow hi hlive, hb.attempted (hb.1 ses hlive.1) hevents⟩
  · exact ⟨_, exec_wireRow_refused hi fun ses hs => Bool.eq_false_iff.mpr fun hp => h ⟨ses, hs, hp⟩, hb.refuse _⟩

theorem exec_cleanup_belongs {s : State} (hl : s.Legal) (hb : s.TracesBelong) :
    ∃ t, exec .cleanup s = .next t ∧ t.TracesBelong := by
  cases hs : s.session with
  | none => exact ⟨_, exec_cleanup_no_session hs, hb.refuse _⟩
  | some ses =>
    have hses : ses.TraceBelongs := hb.1 ses hs
    have hlegal := hl.current ses hs
    have releases (hp : ses.phase = .ready ∨ ses.phase = .failed) : ∃ t, exec .cleanup s = .next t ∧ t.TracesBelong :=
      ⟨_, exec_cleanup_releases hs hp, hb.finish (hses.cleanedUp hlegal _) _ _⟩
    rcases hlegal.phase with hp | hp | hp
    · exact releases (.inl hp)
    · exact releases (.inr hp)
    · exact ⟨_, exec_cleanup_of_released hs hp, hb.finish hses _ _⟩

theorem exec_construct_belongs {i : Instr} (hi : i.isConstruct = true) {s : State} (hb : s.TracesBelong) :
    ∃ t, exec i s = .next t ∧ t.TracesBelong := by
  rcases exec_construct_cases hi s with ⟨r, he⟩ | ⟨cfg, hc, he⟩
  · exact ⟨_, he, hb⟩
  · exact ⟨_, he, hb.constructed hc⟩

theorem exec_belongs (i : Instr) {s : State} (hl : s.Legal) (hb : s.TracesBelong) :
    ∃ t, exec i s = .next t ∧ t.TracesBelong := by
  by_cases hc : i.isConstruct = true
  · exact exec_construct_belongs hc hb
  by_cases hr : i.needsReady = true
  · exact exec_needsReady_belongs hr hl hb
  by_cases hw : i.isWireUnit = true
  · exact exec_wireRow_belongs hw hl hb
  cases i with
  | cleanup => exact exec_cleanup_belongs hl hb
  | reservedRequest17 | reservedRequest18 _ => exact ⟨_, rfl, hb.refuse _⟩
  | _ => simp [Instr.isConstruct, Instr.needsReady, Instr.isWireUnit] at hc hr hw

/-- Settles O55: taking a unit changes no trace, and every instruction issues only what its transport may
(`exec_belongs`). -/
theorem tracesStayWithinTheirTransport : Obligations.TracesStayWithinTheirTransport := by
  intro s t hl hb h
  rcases step_next_cases h with rfl | ⟨u, rest, i, -, -, he⟩
  · exact hb
  · obtain ⟨t', he', hb'⟩ := exec_belongs i (s := { s with pending := rest }) ⟨hl.current, hl.earlier⟩ hb
    obtain rfl := Host.Outcome.next.inj (he'.symm.trans he)
    exact hb'

end Sys2Proof.Machine
end

section
/-! SUPPORT. The transport's own events: the framing of `Send` written out (40_transport.md R126 to R128), the backlight calls
(R130 to R133), the calls of `release` (R134), and that no resource is released twice (R135). -/

namespace Sys2Proof.Machine

/-! ## Release calls -/

/-- A call that only `release` makes: of any resource but a PWM channel, whose call is also that of `disable_backlight`. -/
def Event.isRelease : Event → Bool
  | .pinRelease _ | .pwmTeardown | .i2cClose _ => true
  | .pinOut _ | .pin _ _ | .pwmSetup | .pwmInit _ | .pwmWidth _ _ _ | .pwmClear _ _ | .i2cOpen _ | .i2cWrite _ _
  | .wait _ => false

/-- The release calls of a list of events, in order. -/
def releaseCalls (es : List Event) : List Event := es.filter Event.isRelease

@[simp] theorem releaseCalls_nil : releaseCalls [] = [] := rfl

@[simp] theorem releaseCalls_append (es fs : List Event) : releaseCalls (es ++ fs) = releaseCalls es ++ releaseCalls fs :=
  List.filter_append ..

@[simp] theorem releaseCalls_wait (us : Nat) : releaseCalls [.wait us] = [] := rfl

theorem count_releaseCalls {e : Event} (h : e.isRelease = true) (es : List Event) :
    (releaseCalls es).count e = es.count e := List.count_filter h

/-- A list without release calls has none in the part that is issued. -/
theorem attempt_releaseCalls {es : List Event} (h : releaseCalls es = []) (as : List Answer) :
    releaseCalls (attempt es as).emitted = [] :=
  List.prefix_nil.mp (h ▸ (attempt_emitted_prefix es as).filter Event.isRelease)

/-! ## Only `release` makes a release call -/

@[simp] theorem nibbleEvents_releaseCalls (t : Transport) (rs n) : releaseCalls (nibbleEvents t rs n) = [] := by
  cases t <;> rfl

@[simp] theorem sendEvents_releaseCalls (t : Transport) (rs v) : releaseCalls (sendEvents t rs v) = [] := by
  simp [sendEvents]

@[simp] theorem frames_releaseCalls (t : Transport) (us) : releaseCalls (frames t us) = [] := by
  induction us with
  | nil => rfl
  | cons u us ih =>
    have hcons : frames t (u :: us) = sendEvents t u.1 u.2 ++ frames t us := rfl
    simp [hcons, ih]

theorem unitEvents_releaseCalls (t : Transport) (i : Instr) : releaseCalls (unitEvents t i) = [] := by
  unfold unitEvents
  split
  · simp
  · simp
  · simp
  · simp
  · split <;> simp

theorem requestTail_releaseCalls (i : Instr) (ses : Session) : releaseCalls (requestTail i ses) = [] := by
  cases i with
  | enableBacklight n =>
    change releaseCalls (enableBacklightEvents ses.cfg.transport n) = []
    cases ses.cfg.transport <;> simp [releaseCalls, enableBacklightEvents, Event.isRelease]
  | disableBacklight =>
    change releaseCalls (disableBacklightEvents ses.cfg.transport) = []
    cases ses.cfg.transport <;> simp [releaseCalls, disableBacklightEvents, Event.isRelease]
  | _ => rfl

theorem requestEvents_releaseCalls (i : Instr) (ses : Session) : releaseCalls (requestEvents i ses) = [] := by
  simp [requestEvents, requestTail_releaseCalls]

theorem claimEvents_releaseCalls (t : Transport) : releaseCalls (claimEvents t) = [] := by
  refine List.filter_eq_nil_iff.mpr fun e he => ?_
  obtain ⟨c, hc, rfl⟩ := List.mem_map.mp he
  cases t with
  | i2c a => obtain rfl := List.mem_singleton.mp hc; nofun
  | gpio g =>
    rcases List.mem_append.mp hc with hpin | hpwm
    · obtain ⟨p, -, rfl⟩ := List.mem_map.mp hpin; nofun
    · obtain ⟨-, hpwm⟩ := List.mem_ite_nil_right.mp hpwm
      simp only [List.mem_cons, List.not_mem_nil, or_false] at hpwm
      rcases hpwm with rfl | rfl <;> nofun

theorem beginEvents_releaseCalls (t : Transport) : releaseCalls (beginEvents t) = [] := by
  cases t <;> simp [releaseCalls, beginEvents, Event.isRelease]

theorem constructionEvents_releaseCalls (cfg : SessionConfig) : releaseCalls (constructionEvents cfg) = [] := by
  simp only [constructionEvents, eventsBeforeStep8, eventsBeforeStep6, handshakeEvents, releaseCalls_append,
    releaseCalls_wait, claimEvents_releaseCalls, beginEvents_releaseCalls, nibbleEvents_releaseCalls, frames_releaseCalls,
    List.append_nil]

/-! ## The resources of a transport -/

/-- Different resources have different release calls. -/
theorem releaseEvent_injective (t : Transport) : Function.Injective (releaseEvent t) := by
  intro r r' h
  cases r <;> cases r' <;> simp_all [releaseEvent]

/-- Each resource that is claimed is released by one call. -/
theorem count_releaseEvents (t : Transport) (claimed : List Resource) (r : Resource) :
    (releaseEvents t claimed).count (releaseEvent t r) = claimed.count r := by
  rw [releaseEvents, List.count_map_of_injective _ _ (releaseEvent_injective t), List.count_reverse]

/-- The pins claimed at construction are distinct, as all pins of a GPIO transport are (41_controller_fsm.md R161). -/
theorem claimedPins_nodup {g : GpioTransport} (h : g.pins.Nodup) :
    (g.rsPin :: g.enablePin :: g.rwPin.toList ++ [g.dataPins.d4, g.dataPins.d5, g.dataPins.d6, g.dataPins.d7]).Nodup := by
  have hsub : List.Sublist (g.linePins ++ g.rwPin.toList) g.pins :=
    (List.sublist_append_left g.linePins g.backlightPin.toList).append_right _
  exact ((List.perm_append_comm.cons _).cons _).nodup_iff.mpr (hsub.nodup h)

/-- No resource is claimed twice (40_transport.md R122, R123). -/
theorem allResources_nodup {t : Transport} (h : t.Legal) : (allResources t).Nodup := by
  cases t with
  | i2c a => exact List.nodup_singleton _
  | gpio g =>
    have hpins := (claimedPins_nodup h.1).map (f := Resource.pin) fun _ _ hp => Resource.pin.inj hp
    unfold allResources claims
    rw [List.map_append, List.map_map]
    refine List.nodup_append.mpr ⟨hpins, ?_, ?_⟩
    · split <;> simp
    · intro r hr r' hr'
      obtain ⟨p, -, rfl⟩ := List.mem_map.mp hr
      split at hr'
      · simp only [List.map_cons, List.map_nil, List.mem_cons, List.not_mem_nil, or_false] at hr'
        rcases hr' with rfl | rfl <;> nofun
      · cases hr'

/-! ## No resource is released twice -/

/-- How often a resource was released, and whether it is still claimed. -/
def Session.releasesAndClaims (ses : Session) (r : Resource) : Nat :=
  ses.trace.count (releaseEvent ses.cfg.transport r) + ses.claimed.count r

/-- The three clauses of `ReleasedOnce` are one, over all resources but the PWM channels. -/
theorem Session.releasedOnce_iff (ses : Session) :
    ses.ReleasedOnce ↔
      ∀ r, (releaseEvent ses.cfg.transport r).isRelease = true → ses.releasesAndClaims r ≤ 1 := by
  constructor
  · intro h r hr
    cases r with
    | pin p => exact h.pins p
    | pwmSub => exact h.pwm
    | bus a => exact h.bus a
    | pwmChan ch => cases hr
  · intro h
    exact ⟨fun p => h (.pin p) rfl, h .pwmSub rfl, fun a => h (.bus a) rfl⟩

/-- Events that release nothing. -/
theorem Session.ReleasedOnce.record {ses : Session} (h : ses.ReleasedOnce) {es : List Event} (hes : releaseCalls es = [])
    (as : List Answer) : (ses.record (attempt es as)).ReleasedOnce := by
  rw [releasedOnce_iff] at h ⊢
  intro r (hr : (releaseEvent ses.cfg.transport r).isRelease = true)
  have hcount : (attempt es as).emitted.count (releaseEvent ses.cfg.transport r) = 0 := by
    rw [← count_releaseCalls hr, attempt_releaseCalls hes, List.count_nil]
  simpa [releasesAndClaims, List.count_append, hcount] using h r hr

theorem Session.ReleasedOnce.afterWrites {i : Instr} {ses ses' : Session} (h : ses.ReleasedOnce)
    (hw : requestWrites i ses = some ses') : ses'.ReleasedOnce := by
  rw [requestWrites_frame hw]
  exact ⟨h.pins, h.pwm, h.bus⟩

/-- `cleanup()` gives every claim up for its release call. -/
theorem Session.ReleasedOnce.cleanedUp {ses : Session} (h : ses.ReleasedOnce) (as : List Answer) :
    (ses.cleanedUp as).ReleasedOnce := by
  rw [releasedOnce_iff] at h ⊢
  intro r hr
  have hsame : (ses.cleanedUp as).releasesAndClaims r = ses.releasesAndClaims r := by
    simp [releasesAndClaims, Session.cleanedUp, List.count_append, count_releaseEvents]
  exact hsame ▸ h r hr

/-- A construction releases nothing and claims each resource once. -/
theorem constructedSession_releasedOnce {cfg : SessionConfig} (h : cfg.Legal) (as : List Answer) :
    (constructedSession cfg as).ReleasedOnce := by
  rw [Session.releasedOnce_iff]
  intro r (hr : (releaseEvent cfg.transport r).isRelease = true)
  have htrace : (constructedSession cfg as).trace.count (releaseEvent cfg.transport r) = 0 := by
    rw [← count_releaseCalls hr]
    exact congrArg (List.count _) (attempt_releaseCalls (constructionEvents_releaseCalls cfg) as)
  have hclaimed : (constructedSession cfg as).claimed.Nodup :=
    (List.take_sublist _ _).nodup (allResources_nodup h.transport)
  calc (constructedSession cfg as).releasesAndClaims r
      = 0 + (constructedSession cfg as).claimed.count r := congrArg (· + _) htrace
    _ ≤ 1 := by rw [Nat.zero_add]; exact List.nodup_iff_count_le_one.mp hclaimed r

theorem State.ReleasedOnce.finish {s : State} (h : s.ReleasedOnce) {ses : Session} (hses : ses.ReleasedOnce) (as r) :
    (s.finish ses as r).ReleasedOnce :=
  ⟨fun _ hs => Option.some.inj hs ▸ hses, h.earlier⟩

theorem State.ReleasedOnce.refuse {s : State} (h : s.ReleasedOnce) (r : RefusalReason) : (s.refuse r).ReleasedOnce := by
  refine ⟨fun ses hs => ?_, h.earlier⟩
  obtain ⟨old, ho, rfl⟩ := Option.map_eq_some_iff.mp hs
  obtain ⟨hpins, hpwm, hbus⟩ := h.current old ho
  exact ⟨hpins, hpwm, hbus⟩

theorem State.ReleasedOnce.constructed {s : State} {cfg : SessionConfig} (h : s.ReleasedOnce) (hc : cfg.Legal) :
    (s.constructed cfg).ReleasedOnce := by
  refine ⟨fun _ hs => Option.some.inj hs ▸ constructedSession_releasedOnce hc s.answers, fun ses hm => ?_⟩
  rcases List.mem_append.mp hm with hm | hm
  · exact h.earlier ses hm
  · exact h.current ses (Option.mem_toList.mp hm)

/-! ## Every instruction releases each resource at most once -/

/-- A request that is neither a construction nor cleanup, with the events it issues: it is refused, leaves the session alone,
or writes its registers and issues the events of its request or of its wire row. -/
theorem exec_issues_cases {i : Instr} (hi : i.isConstruct = false) (hc : i ≠ .cleanup) (s : State) :
    (∃ r, exec i s = .next (s.refuse r)) ∨
      ∃ ses, s.session = some ses ∧
        ((∃ r, exec i s = .next (s.finish ses s.answers r)) ∨
          ∃ ses' es, requestWrites i ses = some ses' ∧
            (es = requestEvents i ses' ∨ es = unitEvents ses'.cfg.transport i) ∧
            exec i s = .next (s.attempted ses' es)) := by
  by_cases hr : i.needsReady = true
  · by_cases h : ∃ ses, Ready s ses
    · obtain ⟨ses, hready⟩ := h
      rw [exec_ready hr hready, requestOutcome]
      cases requestProblem i ses with
      | some info => exact .inr ⟨ses, hready.1, .inl ⟨_, rfl⟩⟩
      | none =>
        cases hw : requestWrites i ses with
        | none => exact .inl ⟨_, rfl⟩
        | some ses' => exact .inr ⟨ses, hready.1, .inr ⟨ses', _, hw, .inl rfl, rfl⟩⟩
    · exact .inl ⟨_, exec_needsReady_refused hr fun ses hs hp => h ⟨ses, hs, hp⟩⟩
  by_cases hw : i.isWireUnit = true
  · by_cases h : ∃ ses, Live s ses
    · obtain ⟨ses, hlive⟩ := h
      exact .inr ⟨ses, hlive.1, .inr ⟨ses, _, requestWrites_wireRow hw ses, .inr rfl, exec_wireRow hw hlive⟩⟩
    · exact .inl ⟨_, exec_wireRow_refused hw fun ses hs => Bool.eq_false_iff.mpr fun hp => h ⟨ses, hs, hp⟩⟩
  cases i with
  | reservedRequest17 | reservedRequest18 _ => exact .inl ⟨_, rfl⟩
  | cleanup => exact absurd rfl hc
  | constructGpio _ _ _ _ _ _ _ _ | constructI2c _ _ _ _ => cases hi
  | _ => simp [Instr.needsReady, Instr.isWireUnit] at hr hw

theorem exec_cleanup_releasedOnce {s : State} (hl : s.Legal) (h : s.ReleasedOnce) :
    ∃ t, exec .cleanup s = .next t ∧ t.ReleasedOnce := by
  cases hs : s.session with
  | none => exact ⟨_, exec_cleanup_no_session hs, h.refuse _⟩
  | some ses =>
    have hses := h.current ses hs
    rcases (hl.current ses hs).phase with hp | hp | hp
    · exact ⟨_, exec_cleanup_releases hs (.inl hp), h.finish (hses.cleanedUp _) _ _⟩
    · exact ⟨_, exec_cleanup_releases hs (.inr hp), h.finish (hses.cleanedUp _) _ _⟩
    · exact ⟨_, exec_cleanup_of_released hs hp, h.finish hses _ _⟩

theorem exec_construct_releasedOnce {i : Instr} (hi : i.isConstruct = true) {s : State} (h : s.ReleasedOnce) :
    ∃ t, exec i s = .next t ∧ t.ReleasedOnce := by
  rcases exec_construct_cases hi s with ⟨r, he⟩ | ⟨cfg, hc, he⟩
  · exact ⟨_, he, h.current, h.earlier⟩
  · exact ⟨_, he, h.constructed hc⟩

theorem exec_releasedOnce (i : Instr) {s : State} (hl : s.Legal) (h : s.ReleasedOnce) :
    ∃ t, exec i s = .next t ∧ t.ReleasedOnce := by
  cases hi : i.isConstruct with
  | true => exact exec_construct_releasedOnce hi h
  | false =>
    by_cases hc : i = .cleanup
    · exact hc ▸ exec_cleanup_releasedOnce hl h
    rcases exec_issues_cases hi hc s with ⟨r, he⟩ | ⟨ses, hs, ⟨r, he⟩ | ⟨ses', es, hw, hes, he⟩⟩
    · exact ⟨_, he, h.refuse r⟩
    · exact ⟨_, he, h.finish (h.current ses hs) _ _⟩
    · have hnone : releaseCalls es = [] := by
        rcases hes with rfl | rfl
        · exact requestEvents_releaseCalls i ses'
        · exact unitEvents_releaseCalls _ i
      exact ⟨_, he, h.finish (((h.current ses hs).afterWrites hw).record hnone _) _ _⟩

/-- Settles O56: only cleanup makes release calls, one for each claim, which it gives up (`exec_releasedOnce`). -/
theorem resourcesAreReleasedOnce : Obligations.ResourcesAreReleasedOnce := by
  intro s t hl hr h
  rcases step_next_cases h with rfl | ⟨u, rest, i, -, -, he⟩
  · exact hr
  · obtain ⟨t', he', hr'⟩ :=
      exec_releasedOnce i (s := { s with pending := rest }) ⟨hl.current, hl.earlier⟩ ⟨hr.current, hr.earlier⟩
    obtain rfl := Host.Outcome.next.inj (he'.symm.trans he)
    exact hr'

/-! ## Framing, call by call (42_framing.md R190) -/

/-- A nibble on I2C is two bytes, Enable 1 and then 0 (40_transport.md R128). -/
theorem nibbleEvents_i2c (address : BusAddress) (rs : Level) (n : Nibble) :
    nibbleEvents (.i2c address) rs n =
      [.i2cWrite address (BitVec.ofNat 8 (16 * n.toNat + 8 + 4 * 1 + rs.toNat)), .wait 5,
        .i2cWrite address (BitVec.ofNat 8 (16 * n.toNat + 8 + 4 * 0 + rs.toNat)), .wait 100] := by
  rw [nibbleEvents, expanderByte_eq, expanderByte_eq]
  rfl

/-- Settles O11: each nibble is two bytes, whose values `expanderByte_eq` gives. -/
theorem i2cFramingByteByByte : Obligations.I2cFramingByteByByte := by
  intro address rs value
  have hhigh : (highNibble value).toNat = value / 16 % 16 := by rw [highNibble_eq, BitVec.toNat_ofNat]
  have hlow : (lowNibble value).toNat = value % 16 := by rw [lowNibble_eq, BitVec.toNat_ofNat]
  rw [sendEvents, nibbleEvents_i2c, nibbleEvents_i2c, hhigh, hlow]
  rfl

/-- Settles O12: each data pin carries the bit of the value that its nibble holds at the pin's place. -/
theorem gpioFramingPinByPin : Obligations.GpioFramingPinByPin := by
  intro g rs value
  have hhigh : ∀ k < 4, (highNibble value).getLsbD k = value.testBit (4 + k) := fun k hk => by
    rw [highNibble_eq, getLsbD_ofNat_four, testBit_div_sixteen, decide_eq_true hk, Bool.true_and, Nat.add_comm]
  have hlow : ∀ k < 4, (lowNibble value).getLsbD k = value.testBit (0 + k) := fun k hk => by
    rw [lowNibble_eq, getLsbD_ofNat_four, decide_eq_true hk, Bool.true_and, Nat.zero_add]
  simp only [sendEvents, nibbleEvents, hhigh, hlow, Nat.reduceLT]
  rfl

/-! ## Backlight (40_transport.md R130 to R133) -/

theorem clampPercent_eq (n : Int) : clampPercent n = (max 0 (min n 100)).toNat := by
  unfold clampPercent
  split_ifs <;> omega

/-- A request that issues nothing answers Ok and leaves the session and the answers alone. -/
theorem State.attempted_nil {s : State} {ses : Session} (h : s.session = some ses) :
    s.attempted ses [] = { s with result := some .ok } :=
  State.finish_same h .ok ▸ by simp [State.attempted, Session.record, ioFaultAfter, resultOf]

theorem exec_enableBacklight_ready {s : State} {ses : Session} (h : Ready s ses) (n : Int) :
    exec (.enableBacklight n) s = .next (s.attempted ses (enableBacklightEvents ses.cfg.transport n)) :=
  exec_ready rfl h

theorem exec_disableBacklight_ready {s : State} {ses : Session} (h : Ready s ses) :
    exec .disableBacklight s = .next (s.attempted ses (disableBacklightEvents ses.cfg.transport)) :=
  exec_ready rfl h

/-- Settles O36: neither request has an event on such a transport. -/
theorem backlightElsewhereDoesNothing : Obligations.BacklightElsewhereDoesNothing := by
  intro s ses n h ht
  have hevents : enableBacklightEvents ses.cfg.transport n = [] ∧ disableBacklightEvents ses.cfg.transport = [] := by
    rcases ht with ⟨a, ht⟩ | ⟨g, ht, hbl⟩
    · simp [ht, enableBacklightEvents, disableBacklightEvents]
    · simp [ht, hbl, enableBacklightEvents, disableBacklightEvents]
  rw [exec_enableBacklight_ready h, exec_disableBacklight_ready h, hevents.1, hevents.2, State.attempted_nil h.1]
  exact ⟨rfl, rfl⟩

/-- Settles O35: with a backlight pin each request issues its one PWM call; without one it is O36. -/
theorem backlightDrivesPwm : Obligations.BacklightDrivesPwm := by
  intro s ses g n h ht
  refine ⟨fun bl hbl => ?_, fun hbl => backlightElsewhereDoesNothing s ses n h (.inr ⟨g, ht, hbl⟩)⟩
  rw [exec_enableBacklight_ready h, exec_disableBacklight_ready h, ht]
  simp [enableBacklightEvents, disableBacklightEvents, hbl, pulseWidth, clampPercent_eq]

/-! ## Cleanup with a call that fails -/

/-- Settles O39: `releaseEvent` by resource, the pin of a PWM channel being the session's backlight pin. -/
theorem releaseCallsByResource : Obligations.ReleaseCallsByResource := by
  intro t p ch a
  refine ⟨rfl, rfl, rfl, fun g bl ht hbl => ?_⟩
  simp [releaseEvent, releasedBacklightPin, ht, hbl]

theorem releaseEvents_canFail (t : Transport) (claimed : List Resource) :
    ∀ e ∈ releaseEvents t claimed, e.canFail = true := by
  intro e he
  obtain ⟨r, -, rfl⟩ := List.mem_map.mp he
  cases r <;> rfl

/-- Of calls that can all fail, the first to fail is the one at the place of the first failing answer. -/
theorem attempt_failing_of_first_fail {es : List Event} (hes : ∀ e ∈ es, e.canFail = true) {k : Nat} (hk : k < es.length)
    (rest : List Answer) : (attempt es (List.replicate k .ok ++ .fail :: rest)).failing = some es[k] := by
  induction es generalizing k with
  | nil => cases hk
  | cons e es ih =>
    obtain ⟨he, hes⟩ := List.forall_mem_cons.mp hes
    cases k with
    | zero => exact congrArg Attempt.failing (attempt_cons_fail he es rest)
    | succ k =>
      rw [List.replicate_succ, List.cons_append, attempt_cons_ok he es (by simp)]
      exact ih hes (Nat.lt_of_succ_lt_succ hk)

/-- Settles O38: cleanup issues every release call, and the first to fail, which is no claim, sets `io_fault`. -/
theorem cleanupReportsFirstFailure : Obligations.CleanupReportsFirstFailure := by
  intro s ses k rest hs hp calls hk ha
  have hfailing : (attempt (releaseEvents ses.cfg.transport ses.claimed) s.answers).failing = some calls[k] :=
    ha ▸ attempt_failing_of_first_fail (releaseEvents_canFail _ _) hk rest
  have hclaim : calls[k].isClaim = false := releaseEvents_no_claim _ _ _ (List.getElem_mem hk)
  refine ⟨_, _, exec_cleanup_releases hs hp, rfl, ?_, rfl, rfl, rfl, ?_⟩
  · simp [hfailing, resultOf, errorOfFailing, hclaim]
  · simp [Session.cleanedUp, hfailing, ioFaultAfter, hclaim]

end Sys2Proof.Machine
end

section
/-! SUPPORT. Construction and the phases (41_controller_fsm.md): what validation admits, the session that a construction
without a failing call leaves, the units and the waits of its sequence, and the requests that are refused by phase. -/

namespace Sys2Proof.Machine

/-! ## Reset -/

/-- Settles O1. -/
theorem resetHoldsNoSession : Obligations.ResetHoldsNoSession := ⟨rfl, rfl, rfl, rfl, rfl⟩

/-- Settles O57: there is no session, current or earlier, of which an invariant could fail. -/
theorem resetMeetsTheInvariants : Obligations.ResetMeetsTheInvariants :=
  have hcurrent {P : Session → Prop} : ∀ ses, State.reset.session = some ses → P ses :=
    fun ses h => absurd h.symm (Option.some_ne_none ses)
  have hearlier {P : Session → Prop} : ∀ ses ∈ State.reset.earlier, P ses := List.forall_mem_nil P
  ⟨⟨hcurrent, hearlier⟩, ⟨hcurrent, hearlier⟩, ⟨hcurrent, hearlier⟩⟩

/-! ## The initial `display_function` (R163) -/

theorem initialDisplayFunction_of_lines {lines : Nat} (h : 1 < lines) (dot : Nat) :
    initialDisplayFunction lines dot = 0x08 := by
  have hone : ¬ (dot ≠ 0 ∧ lines = 1) := fun hd => h.ne' hd.2
  rw [initialDisplayFunction, if_pos h, if_neg hone]; rfl

theorem initialDisplayFunction_tallDots {dot : Nat} (h : dot ≠ 0) : initialDisplayFunction 1 dot = 0x04 := by
  rw [initialDisplayFunction, if_neg (Nat.lt_irrefl 1), if_pos ⟨h, rfl⟩]; rfl

theorem initialDisplayFunction_eq {lines : Nat} (h : 1 ≤ lines) (dot : Nat) :
    initialDisplayFunction lines dot = if 1 < lines then 0x08 else if dot = 0 then 0x00 else 0x04 := by
  rcases h.eq_or_lt with rfl | h
  · by_cases hd : dot = 0
    · subst hd; rfl
    · rw [initialDisplayFunction_tallDots hd, if_neg (Nat.lt_irrefl 1), if_neg hd]
  · rw [initialDisplayFunction_of_lines h, if_pos h]

/-- Settles O32. -/
theorem displayFunctionByLinesAndDots : Obligations.DisplayFunctionByLinesAndDots := fun dot =>
  ⟨rfl, initialDisplayFunction_tallDots, fun _ h => initialDisplayFunction_of_lines h dot⟩

/-- The values `display_function` can have. -/
def displayFunctionValues : List Byte := [0x00, 0x04, 0x08]

theorem initialDisplayFunction_mem (lines dot : Nat) : initialDisplayFunction lines dot ∈ displayFunctionValues := by
  rcases Nat.eq_zero_or_pos lines with rfl | h
  · simp [initialDisplayFunction, fourBitModeFlag, line1Flag, dots5x8Flag, displayFunctionValues]
  · rw [initialDisplayFunction_eq h]
    split_ifs <;> simp [displayFunctionValues]

/-! ## Validation (R161) -/

theorem legalColumns_iff {columns : Nat} : legalColumns columns = true ↔ 1 ≤ columns ∧ columns ≤ 40 := by
  simp [legalColumns, Nat.one_le_iff_ne_zero]

theorem legalLines_iff {lines : Nat} : legalLines lines = true ↔ 1 ≤ lines ∧ lines ≤ 4 := by
  simp [legalLines, Nat.one_le_iff_ne_zero]

theorem geometryProblem_of_badColumns {columns : Nat} (h : columns < 1 ∨ columns > 40) (lines : Nat) :
    geometryProblem columns lines = some (.columns columns) := by
  have hc : ¬ legalColumns columns = true := by rw [legalColumns_iff]; omega
  simp [geometryProblem, hc]

theorem geometryProblem_of_badLines {columns lines : Nat} (hcolumns : ¬ (columns < 1 ∨ columns > 40))
    (h : lines < 1 ∨ lines > 4) : geometryProblem columns lines = some (.lines lines) := by
  have hc : legalColumns columns = true := by rw [legalColumns_iff]; omega
  have hl : ¬ legalLines lines = true := by rw [legalLines_iff]; omega
  simp [geometryProblem, hc, hl]

theorem geometryProblem_of_legal {columns lines : Nat} (hc : 1 ≤ columns ∧ columns ≤ 40) (hl : 1 ≤ lines ∧ lines ≤ 4) :
    geometryProblem columns lines = none := by
  simp [geometryProblem, legalColumns_iff.mpr hc, legalLines_iff.mpr hl]

section Constructors

variable {rs en d4 d5 d6 d7 : Pin} {pins : List Pin} {bl rw : Option Pin} {columns lines dot : Nat} {a : BusAddress}
  {s : State} {info : BadArgument}

theorem exec_constructGpio_eightPins (h : pins.length = 8) :
    exec (.constructGpio rs en pins bl rw columns lines dot) s = .next (s.refuseConstruction .eightBitBus) := by
  change execConstructGpio rs en pins bl rw columns lines dot s = _
  unfold execConstructGpio
  rw [if_pos h]

theorem exec_constructGpio_badLength (h8 : pins.length ≠ 8) (h4 : pins.length ≠ 4) :
    exec (.constructGpio rs en pins bl rw columns lines dot) s = .next (s.rejectConstruction (.dataPins pins)) := by
  change execConstructGpio rs en pins bl rw columns lines dot s = _
  unfold execConstructGpio
  rw [if_neg h8]
  split
  · exact absurd rfl h4
  · rfl

theorem exec_constructGpio_duplicatePins (hd : ¬ (pinsPresent rs en [d4, d5, d6, d7] bl rw).Nodup) :
    exec (.constructGpio rs en [d4, d5, d6, d7] bl rw columns lines dot) s =
      .next (s.refuseConstruction .duplicatePins) := by
  change execConstructGpio rs en [d4, d5, d6, d7] bl rw columns lines dot s = _
  simp only [execConstructGpio, pairwiseDistinct, hd]
  rfl

theorem exec_constructGpio_rejected (hd : (pinsPresent rs en [d4, d5, d6, d7] bl rw).Nodup)
    (hg : geometryProblem columns lines = some info) :
    exec (.constructGpio rs en [d4, d5, d6, d7] bl rw columns lines dot) s = .next (s.rejectConstruction info) := by
  change execConstructGpio rs en [d4, d5, d6, d7] bl rw columns lines dot s = _
  simp only [execConstructGpio, pairwiseDistinct, hd, hg]
  rfl

theorem exec_constructGpio_runs (hd : (pinsPresent rs en [d4, d5, d6, d7] bl rw).Nodup)
    (hg : geometryProblem columns lines = none) :
    exec (.constructGpio rs en [d4, d5, d6, d7] bl rw columns lines dot) s =
      .next (s.constructed (gpioConfig rs en d4 d5 d6 d7 bl rw columns lines dot)) := by
  change execConstructGpio rs en [d4, d5, d6, d7] bl rw columns lines dot s = _
  simp only [execConstructGpio, pairwiseDistinct, hd, hg, runConstruction_eq]
  rfl

theorem exec_constructI2c_rejected (hg : geometryProblem columns lines = some info) :
    exec (.constructI2c a columns lines dot) s = .next (s.rejectConstruction info) := by
  change execConstructI2c a columns lines dot s = _
  simp only [execConstructI2c, hg]

theorem exec_constructI2c_runs (hg : geometryProblem columns lines = none) :
    exec (.constructI2c a columns lines dot) s = .next (s.constructed (i2cConfig a columns lines dot)) := by
  change execConstructI2c a columns lines dot s = _
  simp only [execConstructI2c, hg, runConstruction_eq, i2cConfig]

end Constructors

/-- Settles O27: the checks one by one, in the order of R161. -/
theorem constructionIsValidatedFirst : Obligations.ConstructionIsValidatedFirst := by
  intro s rs en pins bl rw columns lines dot a
  refine ⟨exec_constructGpio_eightPins, exec_constructGpio_badLength, fun h4 hd => ?_, fun h4 hd hc => ?_,
    fun h4 hd hc hl => ?_, fun hc => exec_constructI2c_rejected (geometryProblem_of_badColumns hc lines),
    fun hc hl => exec_constructI2c_rejected (geometryProblem_of_badLines hc hl)⟩
  all_goals obtain ⟨d4, d5, d6, d7, rfl⟩ := List.length_eq_four.mp h4
  · exact exec_constructGpio_duplicatePins hd
  · exact exec_constructGpio_rejected hd (geometryProblem_of_badColumns hc lines)
  · exact exec_constructGpio_rejected hd (geometryProblem_of_badLines hc hl)

/-- Settles O28: a construction that passes every check runs, and `runConstruction_eq` says what it leaves. -/
theorem constructionFollowsFixedList : Obligations.ConstructionFollowsFixedList := by
  intro s columns lines dot hc hc' hl hl'
  have legal := geometryProblem_of_legal ⟨hc, hc'⟩ ⟨hl, hl'⟩
  exact ⟨fun _ => exec_constructI2c_runs legal, fun _ _ _ _ _ _ _ _ hd => exec_constructGpio_runs hd legal⟩

/-! ## A construction in which no call fails -/

/-- The session a construction leaves when nothing failed (R171, 10_state.md R41). -/
def readySession (cfg : SessionConfig) : Session where
  phase := .ready
  cfg := cfg
  displayFunction := some (initialDisplayFunction cfg.numLines cfg.dotSize)
  displayControl := some 0x04
  entryMode := some 0x02
  claimed := allResources cfg.transport
  ioFault := false
  refused := false
  trace := constructionEvents cfg

theorem constructedSession_of_passed {cfg : SessionConfig} {as : List Answer}
    (h : (attempt (constructionEvents cfg) as).failing = none) : constructedSession cfg as = readySession cfg := by
  simp [constructedSession, readySession, h, attempt_passed_of_prefix (eventsBeforeStep6_prefix cfg) h,
    attempt_passed_of_prefix (eventsBeforeStep8_prefix cfg) h, attempt_emitted_of_passed h, ioFaultAfter,
    claimsMade_of_passed (attempt_passed_of_prefix (claimEvents_prefix cfg) h)]

theorem State.constructed_of_no_fail {s : State} (h : NoCallFails s) (cfg : SessionConfig) :
    (s.constructed cfg).result = some .ok ∧ (s.constructed cfg).session = some (readySession cfg) := by
  have passed : (attempt (constructionEvents cfg) s.answers).failing = none := by rw [attempt_of_no_fail h]
  exact ⟨congrArg (fun f => some (resultOf f)) passed, congrArg some (constructedSession_of_passed passed)⟩

/-- Steps 6 to 8, which send the same units whatever the configuration (R169 to R171). -/
def finalEvents (t : Transport) : List Event :=
  sendEvents t false 0x0C ++ sendEvents t false 0x01 ++ [.wait 2000] ++ sendEvents t false 0x06

/-- The parts of the fixed list: claims, handshake, FUNCTION_SET, and what follows it. -/
theorem constructionEvents_eq (cfg : SessionConfig) :
    constructionEvents cfg = claimEvents cfg.transport ++ handshakeEvents cfg.transport
      ++ sendEvents cfg.transport false (0x20 ||| (initialDisplayFunction cfg.numLines cfg.dotSize).toNat)
      ++ finalEvents cfg.transport := by
  simp [constructionEvents, eventsBeforeStep8, eventsBeforeStep6, finalEvents, frames]

/-- The flags of `display_function` lie below the bit of the command (30_encoding.md R80). -/
theorem functionSet_or_eq_add : ∀ df ∈ displayFunctionValues, 0x20 ||| df.toNat = 0x20 + df.toNat := by decide

/-- One expander byte with Enable 1, then with Enable 0 (40_transport.md R128). -/
def i2cPulse (a : BusAddress) (b : Byte) : List Event := [.i2cWrite a (b ||| 0x04), .wait 5, .i2cWrite a b, .wait 100]

/-- A nibble with RS 0 is one such pair of bytes. -/
theorem nibbleEvents_i2c_command (a : BusAddress) {n : Nibble} {b : Byte} (h : (n.setWidth 8 <<< 4) ||| 0x08 = b) :
    nibbleEvents (.i2c a) false n = i2cPulse a b := by
  have hbyte : ∀ n : Nibble, expanderByte false n true = (n.setWidth 8 <<< 4) ||| 0x08 ||| 0x04 ∧
      expanderByte false n false = (n.setWidth 8 <<< 4) ||| 0x08 := by decide
  obtain ⟨hhigh, hlow⟩ := hbyte n
  rw [nibbleEvents, hhigh, hlow, h]; rfl

theorem sendEvents_i2c_command (a : BusAddress) {v : Nat} {b c : Byte}
    (hb : ((highNibble v).setWidth 8 <<< 4) ||| 0x08 = b) (hc : ((lowNibble v).setWidth 8 <<< 4) ||| 0x08 = c) :
    sendEvents (.i2c a) false v = i2cPulse a b ++ i2cPulse a c := by
  rw [sendEvents, nibbleEvents_i2c_command a hb, nibbleEvents_i2c_command a hc]

theorem handshakeEvents_i2c (a : BusAddress) :
    handshakeEvents (.i2c a) = [Event.wait 50000] ++ i2cPulse a 0x38 ++ [Event.wait 4500] ++ i2cPulse a 0x38
      ++ [Event.wait 4500] ++ i2cPulse a 0x38 ++ [Event.wait 150] ++ i2cPulse a 0x28 := by
  have nibble3 : nibbleEvents (.i2c a) false 0x3 = i2cPulse a 0x38 := nibbleEvents_i2c_command a rfl
  have nibble2 : nibbleEvents (.i2c a) false 0x2 = i2cPulse a 0x28 := nibbleEvents_i2c_command a rfl
  rw [handshakeEvents, nibble3, nibble2, beginEvents, List.append_nil]

theorem finalEvents_i2c (a : BusAddress) :
    finalEvents (.i2c a) = i2cPulse a 0x08 ++ i2cPulse a 0xC8 ++ (i2cPulse a 0x08 ++ i2cPulse a 0x18)
      ++ [Event.wait 2000] ++ (i2cPulse a 0x08 ++ i2cPulse a 0x68) := by
  rw [finalEvents, sendEvents_i2c_command (v := 0x0C) a rfl rfl, sendEvents_i2c_command (v := 0x01) a rfl rfl,
    sendEvents_i2c_command (v := 0x06) a rfl rfl]
  rfl

theorem functionSet_i2c (a : BusAddress) {df : Byte} (h : df ∈ displayFunctionValues) :
    sendEvents (.i2c a) false (0x20 ||| df.toNat) = i2cPulse a 0x28 ++ i2cPulse a ((df <<< 4) ||| 0x08) := by
  have hbytes : ∀ df ∈ displayFunctionValues,
      ((highNibble (0x20 ||| df.toNat)).setWidth 8 <<< 4) ||| 0x08 = (0x28 : Byte) ∧
        ((lowNibble (0x20 ||| df.toNat)).setWidth 8 <<< 4) ||| 0x08 = (df <<< 4) ||| 0x08 := by decide
  obtain ⟨hhigh, hlow⟩ := hbytes df h
  exact sendEvents_i2c_command a hhigh hlow

/-- Settles O29: the parts of the fixed list on I2C, of which only FUNCTION_SET depends on the configuration. -/
theorem i2cConstructionByteByByte : Obligations.I2cConstructionByteByByte := by
  intro s a columns lines dot hc hc' hl hl' hn
  extract_lets df pulse
  obtain ⟨hresult, hsession⟩ := State.constructed_of_no_fail hn (i2cConfig a columns lines dot)
  refine ⟨_, (constructionFollowsFixedList s columns lines dot hc hc' hl hl').1 a, hresult, hsession.trans ?_⟩
  have hdf : initialDisplayFunction lines dot = df := initialDisplayFunction_eq hl dot
  have hset := functionSet_i2c a (hdf ▸ initialDisplayFunction_mem lines dot)
  have hpulse : pulse = i2cPulse a := rfl
  have htrace : constructionEvents (i2cConfig a columns lines dot) = [.i2cOpen a] ++ handshakeEvents (.i2c a)
      ++ (pulse 0x28 ++ pulse ((df <<< 4) ||| 0x08)) ++ finalEvents (.i2c a) := by
    rw [hpulse, ← hset, ← hdf]; exact constructionEvents_eq _
  rw [readySession, htrace, handshakeEvents_i2c, finalEvents_i2c, ← hpulse]
  simp only [i2cConfig, hdf, List.append_assoc]
  rfl

/-- The pins that a construction claims, in claim order (40_transport.md R122). -/
def GpioTransport.claimedPins (g : GpioTransport) : List Pin :=
  [g.rsPin, g.enablePin] ++ g.rwPin.toList ++ [g.dataPins.d4, g.dataPins.d5, g.dataPins.d6, g.dataPins.d7]

theorem claims_gpio (g : GpioTransport) :
    claims (.gpio g) = g.claimedPins.map (fun p => (Event.pinOut p, Resource.pin p))
      ++ if g.backlightPin.isSome then
          [(Event.pwmSetup, Resource.pwmSub), (Event.pwmInit g.pwmChannel, Resource.pwmChan g.pwmChannel)]
        else [] := by
  rw [claims, GpioTransport.claimedPins]; rfl

theorem claimEvents_gpio (g : GpioTransport) :
    claimEvents (.gpio g) = g.claimedPins.map Event.pinOut
      ++ (if g.backlightPin.isSome then [Event.pwmSetup, .pwmInit g.pwmChannel] else []) := by
  rw [claimEvents, claims_gpio, List.map_append, List.map_map, apply_ite (List.map Prod.fst)]
  rfl

theorem claimEvents_isClaim (t : Transport) : ∀ e ∈ claimEvents t, e.isClaim = true := by
  intro e he
  cases t with
  | i2c a => obtain rfl := List.mem_singleton.mp he; rfl
  | gpio g =>
    rw [claimEvents_gpio] at he
    rcases List.mem_append.mp he with hpin | hpwm
    · obtain ⟨p, -, rfl⟩ := List.mem_map.mp hpin; rfl
    · obtain ⟨-, hpwm⟩ := List.mem_ite_nil_right.mp hpwm
      simp only [List.mem_cons, List.not_mem_nil, or_false] at hpwm
      rcases hpwm with rfl | rfl <;> rfl

theorem allResources_gpio (g : GpioTransport) :
    allResources (.gpio g) = g.claimedPins.map Resource.pin
      ++ (if g.backlightPin.isSome then [Resource.pwmSub, .pwmChan g.pwmChannel] else []) := by
  rw [allResources, claims_gpio, List.map_append, List.map_map, apply_ite (List.map Prod.snd)]
  rfl

/-- Settles O30: the parts of the fixed list on GPIO. -/
theorem gpioConstructionInOrder : Obligations.GpioConstructionInOrder := by
  intro s rs en d4 d5 d6 d7 bl rw columns lines dot hc hc' hl hl' hd hn cfg
  extract_lets df claimed n3
  obtain ⟨hresult, hsession⟩ := State.constructed_of_no_fail hn cfg
  refine ⟨_, (constructionFollowsFixedList s columns lines dot hc hc' hl hl').2 rs en d4 d5 d6 d7 bl rw hd, hresult,
    hsession.trans ?_⟩
  have hdf : initialDisplayFunction cfg.numLines cfg.dotSize = df := initialDisplayFunction_eq hl dot
  have hset := functionSet_or_eq_add df (hdf ▸ initialDisplayFunction_mem cfg.numLines cfg.dotSize)
  have hclaims : claimEvents cfg.transport = claimed.map .pinOut
      ++ (if bl.isSome then [.pwmSetup, .pwmInit Config.pwmChannel] else []) := claimEvents_gpio _
  have hresources : allResources cfg.transport = claimed.map .pin
      ++ (if bl.isSome then [.pwmSub, .pwmChan Config.pwmChannel] else []) := allResources_gpio _
  have hbegin : beginEvents cfg.transport = [.pin rs false, .pin en false] ++ rw.toList.map (fun p => .pin p false) :=
    rfl
  rw [readySession, constructionEvents_eq, hclaims, hresources, hdf, hset, handshakeEvents, hbegin, finalEvents]
  simp only [frames, List.flatMap_cons, List.flatMap_nil, List.append_assoc, List.append_nil, List.cons_append,
    List.nil_append]
  rfl

/-! ## Units on the wires (R172) -/

/-- From lines with Enable low, the events put these units on the wires and leave Enable low. -/
def Carries (t : Transport) (es : List Event) (units : List (Level × Nibble)) : Prop :=
  ∀ l : Lines, l.enable = false →
    (es.foldl (Lines.after t) l).seen = l.seen ++ units ∧ (es.foldl (Lines.after t) l).enable = false

theorem Carries.nil (t : Transport) : Carries t [] [] := fun _ hl => ⟨(List.append_nil _).symm, hl⟩

theorem Carries.append {t : Transport} {es fs us vs} (h : Carries t es us) (h' : Carries t fs vs) :
    Carries t (es ++ fs) (us ++ vs) := by
  intro l hl
  obtain ⟨hseen, henable⟩ := h l hl
  obtain ⟨hseen', henable'⟩ := h' _ henable
  rw [List.foldl_append]
  exact ⟨by rw [hseen', hseen, List.append_assoc], henable'⟩

/-- Events that each put nothing on the wires. -/
theorem Carries.of_forall {t : Transport} {es : List Event} (h : ∀ e ∈ es, Carries t [e] []) : Carries t es [] := by
  induction es with
  | nil => exact .nil t
  | cons e es ih =>
    obtain ⟨he, hes⟩ := List.forall_mem_cons.mp h
    exact he.append (ih hes)

theorem Carries.unitsSeen {t : Transport} {es us} (h : Carries t es us) : unitsSeen t es = us :=
  (h .rest rfl).1

theorem Carries.wait (t : Transport) (us : Nat) : Carries t [.wait us] [] := by
  cases t with
  | gpio g => exact .nil (.gpio g)
  | i2c a => exact .nil (.i2c a)

/-- A pin driven low is no falling edge while Enable is low. -/
theorem Carries.pinLow (g : GpioTransport) (p : Pin) : Carries (.gpio g) [.pin p false] [] := by
  intro l hl
  simp only [List.foldl_cons, List.foldl_nil, Lines.after, Lines.onPin, List.append_nil]
  split_ifs <;> simp [Lines.setEnable, hl]

/-- A claim is no traffic. -/
theorem Carries.claim (t : Transport) {e : Event} (h : e.isClaim = true) : Carries t [e] [] := by
  have hsame (l : Lines) : l.after t e = l := by
    cases e with
    | pinOut _ | pwmSetup | pwmInit _ | i2cOpen _ => cases t <;> rfl
    | _ => cases h
  intro l hl
  simp [hsame, hl]

theorem Carries.claims (t : Transport) : Carries t (claimEvents t) [] :=
  .of_forall fun e he => .claim t (claimEvents_isClaim t e he)

theorem Carries.begin (t : Transport) : Carries t (beginEvents t) [] := by
  cases t with
  | i2c a => exact .nil _
  | gpio g =>
    refine .of_forall fun e he => ?_
    simp only [beginEvents, List.mem_cons, List.mem_map] at he
    rcases he with rfl | rfl | ⟨p, -, rfl⟩ <;> exact .pinLow g _

theorem nibbleOfLines_bits (n : Nibble) :
    nibbleOfLines (n.getLsbD 0) (n.getLsbD 1) (n.getLsbD 2) (n.getLsbD 3) = n := by
  revert n; decide

/-- The bits of an expander byte are the lines (30_encoding.md R71). -/
theorem Lines.onByte_expanderByte (l : Lines) (rs : Level) (n : Nibble) (e : Level) :
    l.onByte (expanderByte rs n e) =
      { l with rs := rs, d4 := n.getLsbD 0, d5 := n.getLsbD 1, d6 := n.getLsbD 2, d7 := n.getLsbD 3 }.setEnable e := by
  have hbits : ∀ (rs : Level) (n : Nibble) (e : Level), (expanderByte rs n e).getLsbD 0 = rs ∧
      (expanderByte rs n e).getLsbD 2 = e ∧ (expanderByte rs n e).getLsbD 4 = n.getLsbD 0 ∧
      (expanderByte rs n e).getLsbD 5 = n.getLsbD 1 ∧ (expanderByte rs n e).getLsbD 6 = n.getLsbD 2 ∧
      (expanderByte rs n e).getLsbD 7 = n.getLsbD 3 := by decide
  obtain ⟨h0, h2, h4, h5, h6, h7⟩ := hbits rs n e
  rw [Lines.onByte, h0, h2, h4, h5, h6, h7]

/-- Each pin of a legal GPIO transport drives its own line (30_encoding.md R72). -/
theorem Lines.onPin_linePins {g : GpioTransport} (h : g.pins.Nodup) (l : Lines) (v : Level) :
    l.onPin g g.enablePin v = l.setEnable v ∧ l.onPin g g.rsPin v = { l with rs := v } ∧
      l.onPin g g.dataPins.d4 v = { l with d4 := v } ∧ l.onPin g g.dataPins.d5 v = { l with d5 := v } ∧
      l.onPin g g.dataPins.d6 v = { l with d6 := v } ∧ l.onPin g g.dataPins.d7 v = { l with d7 := v } := by
  have distinct : g.linePins.Nodup := by
    rw [GpioTransport.pins_eq, List.append_assoc] at h
    exact h.of_append_left
  simp only [GpioTransport.linePins, List.nodup_cons, List.mem_cons, List.not_mem_nil, or_false, not_or] at distinct
  obtain ⟨⟨hre, hr4, hr5, hr6, hr7⟩, ⟨he4, he5, he6, he7⟩, ⟨h45, h46, h47⟩, ⟨h56, h57⟩, h67, -⟩ := distinct
  simp only [Lines.onPin, hre, Ne.symm hr4, Ne.symm hr5, Ne.symm hr6, Ne.symm hr7, Ne.symm he4, Ne.symm he5,
    Ne.symm he6, Ne.symm he7, Ne.symm h45, Ne.symm h46, Ne.symm h47, Ne.symm h56, Ne.symm h57, Ne.symm h67, if_true,
    if_false, and_self]

/-- `SendNibble` commits its unit at the one falling edge of Enable (40_transport.md R126 to R128). -/
theorem Carries.nibble {t : Transport} (h : t.Legal) (rs : Level) (n : Nibble) :
    Carries t (nibbleEvents t rs n) [(rs, n)] := by
  intro l hl
  cases t with
  | i2c a =>
    simp only [nibbleEvents, List.foldl_cons, List.foldl_nil, Lines.after, if_true, Lines.onByte_expanderByte,
      Lines.setEnable, Lines.unit, nibbleOfLines_bits, hl]
    simp
  | gpio g =>
    simp only [nibbleEvents, pulseEvents, List.cons_append, List.nil_append, List.foldl_cons, List.foldl_nil,
      Lines.after, Lines.onPin_linePins h.1, Lines.setEnable, Lines.unit, nibbleOfLines_bits, hl]
    simp

theorem Carries.send {t : Transport} (h : t.Legal) (rs : Level) (v : Nat) :
    Carries t (sendEvents t rs v) [(rs, highNibble v), (rs, lowNibble v)] :=
  (Carries.nibble h rs _).append (.nibble h rs _)

theorem Carries.handshake {t : Transport} (h : t.Legal) :
    Carries t (handshakeEvents t) [(false, 0x3), (false, 0x3), (false, 0x3), (false, 0x2)] := by
  have nibble (n) : Carries t (nibbleEvents t false n) [(false, n)] := .nibble h false n
  exact (Carries.wait t _).append (.begin t) |>.append (nibble _) |>.append (.wait t _) |>.append (nibble _)
    |>.append (.wait t _) |>.append (nibble _) |>.append (.wait t _) |>.append (nibble _)

theorem Carries.final {t : Transport} (h : t.Legal) :
    Carries t (finalEvents t)
      [(false, 0x0), (false, 0xC), (false, 0x0), (false, 0x1), (false, 0x0), (false, 0x6)] :=
  (Carries.send h false 0x0C).append (.send h false 0x01) |>.append (.wait t _) |>.append (.send h false 0x06)

/-- FUNCTION_SET's two nibbles (R168). -/
theorem functionSet_nibbles : ∀ df ∈ displayFunctionValues,
    highNibble (0x20 ||| df.toNat) = 0x2 ∧ lowNibble (0x20 ||| df.toNat) = BitVec.ofNat 4 df.toNat := by decide

theorem Carries.construction {cfg : SessionConfig} (h : cfg.transport.Legal) :
    Carries cfg.transport (constructionEvents cfg) ([0x3, 0x3, 0x3, 0x2, 0x2,
      BitVec.ofNat 4 (initialDisplayFunction cfg.numLines cfg.dotSize).toNat, 0x0, 0xC, 0x0, 0x1, 0x0, 0x6].map
        fun n => (false, n)) := by
  obtain ⟨hhigh, hlow⟩ := functionSet_nibbles _ (initialDisplayFunction_mem cfg.numLines cfg.dotSize)
  have hset := Carries.send h false (0x20 ||| (initialDisplayFunction cfg.numLines cfg.dotSize).toNat)
  rw [hhigh, hlow] at hset
  rw [constructionEvents_eq]
  exact (Carries.claims _).append (.handshake h) |>.append hset |>.append (.final h)

/-! ## A construction that returns Ok -/

/-- As `exec_construct_cases`, with the result: a construction that is turned down does not answer Ok. -/
theorem exec_construct_rejects_or_runs {i : Instr} (hi : i.isConstruct = true) (s : State) :
    (∃ r, exec i s = .next { s with result := some r } ∧ r ≠ .ok) ∨
      ∃ cfg : SessionConfig, exec i s = .next (s.constructed cfg) ∧ cfg.transport.Legal := by
  cases i with
  | constructI2c a columns lines dot =>
    cases hg : geometryProblem columns lines with
    | some info => exact .inl ⟨_, exec_constructI2c_rejected hg, nofun⟩
    | none => exact .inr ⟨_, exec_constructI2c_runs hg, trivial⟩
  | constructGpio rs en pins bl rw columns lines dot =>
    by_cases h8 : pins.length = 8
    · exact .inl ⟨_, exec_constructGpio_eightPins h8, nofun⟩
    by_cases h4 : pins.length = 4
    · obtain ⟨d4, d5, d6, d7, rfl⟩ := List.length_eq_four.mp h4
      by_cases hd : (pinsPresent rs en [d4, d5, d6, d7] bl rw).Nodup
      · cases hg : geometryProblem columns lines with
        | some info => exact .inl ⟨_, exec_constructGpio_rejected hd hg, nofun⟩
        | none => exact .inr ⟨_, exec_constructGpio_runs hd hg, hd, Nat.succ_pos _⟩
      · exact .inl ⟨_, exec_constructGpio_duplicatePins hd, nofun⟩
    · exact .inl ⟨_, exec_constructGpio_badLength h8 h4, nofun⟩
  | _ => cases hi

/-- A construction that returns Ok leaves the session in which nothing failed. -/
theorem exec_construct_ok {i : Instr} (hi : i.isConstruct = true) {s t : State} {ses : Session} (h : exec i s = .next t)
    (hr : t.result = some .ok) (hs : t.session = some ses) :
    ∃ cfg : SessionConfig, cfg.transport.Legal ∧ ses = readySession cfg := by
  rcases exec_construct_rejects_or_runs hi s with ⟨r, he, hne⟩ | ⟨cfg, he, hc⟩
  · obtain rfl := Host.Outcome.next.inj (he.symm.trans h)
    exact absurd (Option.some.inj hr) hne
  · obtain rfl := Host.Outcome.next.inj (he.symm.trans h)
    obtain rfl := Option.some.inj hs
    refine ⟨cfg, hc, constructedSession_of_passed ?_⟩
    cases hf : (attempt (constructionEvents cfg) s.answers).failing with
    | none => rfl
    | some e => simp [State.constructed, hf, resultOf] at hr

/-- Settles O33: the units of each part of the fixed list, one after the other (`Carries.construction`). -/
theorem initializationUnitsOnTheWires : Obligations.InitializationUnitsOnTheWires := by
  intro s t ses i hi h hr hs
  obtain ⟨cfg, hc, rfl⟩ := exec_construct_ok hi h hr hs
  exact ⟨_, rfl, (Carries.construction hc).unitsSeen⟩

/-! ## Time -/

theorem minTime_append (es fs : List Event) : minTime (es ++ fs) = minTime es + minTime fs := by
  simp [minTime]

theorem minTime_wait (us : Nat) : minTime [.wait us] = us := rfl

theorem minTime_eq_zero {es : List Event} (h : ∀ e ∈ es, e.waitTime = 0) : minTime es = 0 :=
  List.sum_eq_zero fun n hn => by
    obtain ⟨e, he, rfl⟩ := List.mem_map.mp hn
    exact h e he

theorem minTime_claimEvents (t : Transport) : minTime (claimEvents t) = 0 := by
  refine minTime_eq_zero fun e he => ?_
  have hclaim := claimEvents_isClaim t e he
  cases e with
  | wait _ => cases hclaim
  | _ => rfl

theorem minTime_beginEvents (t : Transport) : minTime (beginEvents t) = 0 := by
  refine minTime_eq_zero fun e he => ?_
  cases t with
  | i2c a => cases he
  | gpio g =>
    simp only [beginEvents, List.mem_cons, List.mem_map] at he
    rcases he with rfl | rfl | ⟨p, -, rfl⟩ <;> rfl

/-- How long one nibble unit takes (70_reset_and_hazards.md R350). -/
def nibbleTime : Transport → Nat
  | .gpio _ => 102
  | .i2c _ => 105

theorem minTime_nibbleEvents (t : Transport) (rs n) : minTime (nibbleEvents t rs n) = nibbleTime t := by
  cases t with
  | gpio g =>
    simp [minTime, nibbleEvents, pulseEvents, Event.waitTime, nibbleTime, edgeWait, pulseSettleWait]
  | i2c a => simp [minTime, nibbleEvents, Event.waitTime, nibbleTime, i2cEnableWait, i2cSettleWait]

theorem minTime_sendEvents (t : Transport) (rs v) : minTime (sendEvents t rs v) = 2 * nibbleTime t := by
  simp only [sendEvents, minTime_append, minTime_nibbleEvents]; omega

theorem minTime_handshakeEvents (t : Transport) : minTime (handshakeEvents t) = 59150 + 4 * nibbleTime t := by
  simp only [handshakeEvents, minTime_append, minTime_wait, minTime_nibbleEvents, minTime_beginEvents]; omega

theorem minTime_finalEvents (t : Transport) : minTime (finalEvents t) = 2000 + 6 * nibbleTime t := by
  simp only [finalEvents, minTime_append, minTime_wait, minTime_sendEvents]; omega

theorem minTime_constructionEvents (cfg : SessionConfig) :
    minTime (constructionEvents cfg) = 61150 + 12 * nibbleTime cfg.transport := by
  simp only [constructionEvents_eq, minTime_append, minTime_claimEvents, minTime_handshakeEvents, minTime_sendEvents,
    minTime_finalEvents]
  omega

/-- Settles O34: 61150 microseconds of delays and twelve nibble units. -/
theorem initializationTakesItsMinimumTime : Obligations.InitializationTakesItsMinimumTime := by
  intro s t ses i hi h hr hs
  obtain ⟨cfg, -, rfl⟩ := exec_construct_ok hi h hr hs
  refine (minTime_constructionEvents cfg).trans ?_
  change _ = match cfg.transport with | .i2c _ => 62410 | .gpio _ => 62374
  cases cfg.transport <;> rfl

/-! ## Phases (R160) -/

theorem State.refuse_of_session {s : State} {ses : Session} (h : s.session = some ses) (r : RefusalReason) :
    s.refuse r = { s with session := some { ses with refused := true }, result := some (.refused r) } := by
  simp [State.refuse, h]

theorem State.refuse_of_no_session {s : State} (h : s.session = none) (r : RefusalReason) :
    s.refuse r = { s with result := some (.refused r) } := by
  cases s; simp_all [State.refuse]

theorem exec_cleanup_before_ready {s : State} {ses : Session} (hs : s.session = some ses)
    (hp : ses.phase = .uninitialized ∨ ses.phase = .handshakeIn4BitMode) :
    exec .cleanup s = .next (s.refuse .notReady) := by
  change execCleanup s = _
  rcases hp with hp | hp <;> simp only [execCleanup, hs, hp]

/-- Settles O41. -/
theorem cleanupAndWireRowsElsewhereAreRefused : Obligations.CleanupAndWireRowsElsewhereAreRefused := by
  refine fun s => ⟨fun ses hs => ?_, fun hs i hi => ?_⟩
  · rw [← State.refuse_of_session hs]
    refine ⟨exec_cleanup_before_ready hs, fun hp i hi => exec_wireRow_refused hi fun ses' hs' => ?_⟩
    obtain rfl := Option.some.inj (hs.symm.trans hs')
    exact hp
  · rw [← State.refuse_of_no_session hs]
    rcases hi with rfl | hi
    · exact exec_cleanup_no_session hs
    · exact exec_wireRow_refused hi fun ses hs' => absurd (hs.symm.trans hs') nofun

/-- Settles O47, by the four ways a request ends: only a release writes the phase. -/
theorem onlyCleanupChangesThePhase : Obligations.OnlyCleanupChangesThePhase := by
  intro s t i ses ses' hi hs h ht
  cases Answered.of_exec hi h with
  | refused r =>
    obtain rfl : { ses with refused := true } = ses' := by simpa [hs] using ht
    exact .inl rfl
  | unchanged hs' _ =>
    obtain rfl := Option.some.inj (hs.symm.trans hs')
    obtain rfl := Option.some.inj ht
    exact .inl rfl
  | issued hs' hw _ =>
    obtain rfl := Option.some.inj (hs.symm.trans hs')
    obtain rfl := Option.some.inj ht
    exact .inl (by rw [requestWrites_frame hw]; rfl)
  | released hs' hc hp =>
    obtain rfl := Option.some.inj (hs.symm.trans hs')
    obtain rfl := Option.some.inj ht
    exact .inr ⟨hc, hp, rfl⟩

/-! ## The handshake nibbles alone -/

/-- Settles O26: each nibble row issues one pair of bytes. -/
theorem handshakeNibblesOnI2c : Obligations.HandshakeNibblesOnI2c := by
  intro s ses a hl ht
  have row (i : Instr) (hi : i.isWireUnit = true) : exec i s = .next (s.attempted ses (unitEvents (.i2c a) i)) :=
    ht ▸ exec_wireRow hi hl
  constructor
  · rw [row _ rfl, unitEvents, nibbleEvents_i2c_command (b := 0x38) a rfl]; rfl
  · rw [row _ rfl, unitEvents, nibbleEvents_i2c_command (b := 0x28) a rfl]; rfl

end Sys2Proof.Machine
end

section
/-! SUPPORT. Framing does not depend on the transport (42_framing.md R194): the nibble units that a `Send`, and a whole
operation, put on the wires of either transport. -/

namespace Sys2Proof.Machine

/-- Settles O13: `Carries.send`, with the two nibbles written as numbers. -/
theorem framingIndependentOfTransport : Obligations.FramingIndependentOfTransport := by
  intro t l rs value ht hl
  rw [← highNibble_eq, ← lowNibble_eq]
  exact Carries.send ht rs value l hl

/-! ## The nibble units of an operation -/

/-- The nibble units of protocol units, the high nibble of each first (R190). -/
def nibbleUnits (units : List (Level × Nat)) : List (Level × Nibble) :=
  units.flatMap fun u => [(u.1, highNibble u.2), (u.1, lowNibble u.2)]

theorem Carries.frames {t : Transport} (h : t.Legal) (units : List (Level × Nat)) :
    Carries t (frames t units) (nibbleUnits units) := by
  induction units with
  | nil => exact .nil t
  | cons u units ih => exact (Carries.send h u.1 u.2).append ih

/-- A PWM call is no traffic. -/
theorem Carries.pwm (t : Transport) {e : Event} (h : e.isPwm = true) : Carries t [e] [] := by
  cases e with
  | pwmSetup | pwmInit _ | pwmWidth _ _ _ | pwmClear _ _ | pwmTeardown =>
    cases t <;> exact fun _ hl => ⟨(List.append_nil _).symm, hl⟩
  | _ => cases h

/-- The wait of a long command and the backlight calls put nothing on the wires. -/
theorem Carries.requestTail (i : Instr) (ses : Session) : Carries ses.cfg.transport (requestTail i ses) [] := by
  cases i with
  | clear | home => exact .wait _ _
  | enableBacklight n => exact .of_forall fun _ he => .pwm _ (enableBacklightEvents_mem he).2
  | disableBacklight => exact .of_forall fun _ he => .pwm _ (disableBacklightEvents_mem he).2
  | _ => exact .nil _

theorem Carries.requestEvents (i : Instr) {ses : Session} (h : ses.cfg.transport.Legal) :
    Carries ses.cfg.transport (requestEvents i ses) (nibbleUnits (requestUnits i ses)) := by
  have happend := (Carries.frames h (requestUnits i ses)).append (.requestTail i ses)
  rwa [List.append_nil] at happend

/-! ## Sessions that differ in their transport -/

/-- All that an operation looks at besides the transport is the same in both sessions. -/
structure Session.Agree (a b : Session) : Prop where
  columns : a.cfg.columns = b.cfg.columns
  lines : a.cfg.numLines = b.cfg.numLines
  displayControl : a.displayControl = b.displayControl
  entryMode : a.entryMode = b.entryMode

theorem Session.Agree.requestProblem {a b : Session} (h : a.Agree b) (i : Instr) :
    requestProblem i a = requestProblem i b := by
  cases i with
  | setCursor _ col | writeRaw _ _ col => simp only [Machine.requestProblem, columnProblem, h.columns]
  | _ => rfl

theorem Session.Agree.requestUnits {a b : Session} (h : a.Agree b) (i : Instr) :
    requestUnits i a = requestUnits i b := by
  cases i with
  | setCursor _ _ | writeRaw _ _ _ => simp only [Machine.requestUnits, h.lines]
  | writeText _ _ => simp only [Machine.requestUnits, h.columns]
  | display | noDisplay | cursor | noCursor | blink | noBlink => simp only [Machine.requestUnits, h.displayControl]
  | leftToRight | rightToLeft | autoscroll | noAutoscroll => simp only [Machine.requestUnits, h.entryMode]
  | _ => rfl

theorem Session.Agree.updateDisplayControl {a b a' b' : Session} (h : a.Agree b) {f : Byte → Byte}
    (ha : a.updateDisplayControl f = some a') (hb : b.updateDisplayControl f = some b') : a'.Agree b' := by
  obtain ⟨dc, hdc, rfl⟩ := Session.updateDisplayControl_eq_some ha
  obtain ⟨dc', hdc', rfl⟩ := Session.updateDisplayControl_eq_some hb
  obtain rfl : dc = dc' := Option.some.inj (hdc.symm.trans (h.displayControl.trans hdc'))
  exact { h with displayControl := rfl }

theorem Session.Agree.updateEntryMode {a b a' b' : Session} (h : a.Agree b) {f : Byte → Byte}
    (ha : a.updateEntryMode f = some a') (hb : b.updateEntryMode f = some b') : a'.Agree b' := by
  obtain ⟨em, hem, rfl⟩ := Session.updateEntryMode_eq_some ha
  obtain ⟨em', hem', rfl⟩ := Session.updateEntryMode_eq_some hb
  obtain rfl : em = em' := Option.some.inj (hem.symm.trans (h.entryMode.trans hem'))
  exact { h with entryMode := rfl }

theorem Session.Agree.requestWrites {a b a' b' : Session} (h : a.Agree b) {i : Instr}
    (ha : requestWrites i a = some a') (hb : requestWrites i b = some b') : a'.Agree b' := by
  cases i with
  | display | noDisplay | cursor | noCursor | blink | noBlink => exact h.updateDisplayControl ha hb
  | leftToRight | rightToLeft | autoscroll | noAutoscroll => exact h.updateEntryMode ha hb
  | _ =>
    obtain rfl := Option.some.inj ha
    obtain rfl := Option.some.inj hb
    exact h

/-! ## An operation in which no call fails -/

/-- A request that its argument check rejects issues nothing. -/
theorem exec_ready_rejected {s : State} {ses : Session} {i : Instr} {info : BadArgument} (hi : i.needsReady = true)
    (hr : Ready s ses) (hp : requestProblem i ses = some info) :
    ∃ t, exec i s = .next t ∧ t.result = some (.err (.invalidArgument info)) ∧
      t.session.map Session.trace = some (ses.trace ++ []) := by
  rw [exec_ready hi hr, requestOutcome, hp]
  exact ⟨_, rfl, rfl, by simp⟩

/-- A request that its argument check admits answers Ok and issues its fixed list. -/
theorem exec_ready_issues {s : State} {ses ses' : Session} {i : Instr} (hi : i.needsReady = true) (hr : Ready s ses)
    (hn : NoCallFails s) (hp : requestProblem i ses = none) (hw : requestWrites i ses = some ses') :
    ∃ t, exec i s = .next t ∧ t.result = some .ok ∧
      t.session.map Session.trace = some (ses.trace ++ requestEvents i ses') := by
  have htrace : ses'.trace = ses.trace := by rw [requestWrites_frame hw]
  rw [exec_ready hi hr, requestOutcome, hp, hw]
  exact ⟨_, rfl, by simp [State.attempted_of_no_fail hn, htrace]⟩

/-- What an operation issues puts the nibble units of `requestUnits` on the wires of the session's transport. -/
theorem unitsSeen_requestEvents {ses ses' : Session} {i : Instr} (h : ses.Legal)
    (hw : requestWrites i ses = some ses') :
    unitsSeen ses.cfg.transport (requestEvents i ses') = nibbleUnits (requestUnits i ses') := by
  have hcfg : ses'.cfg = ses.cfg := by rw [requestWrites_frame hw]
  rw [← hcfg]
  exact (Carries.requestEvents i (h.afterWrites hw).cfg.transport).unitsSeen

/-- Settles O51: sessions that agree are checked alike, write their registers alike, and send the same protocol units. -/
theorem operationsIndependentOfTransport : Obligations.OperationsIndependentOfTransport := by
  intro s1 s2 ses1 ses2 i hi hr1 hr2 hl1 hl2 hn1 hn2 hcolumns hlines hdc hem
  have agree : ses1.Agree ses2 := ⟨hcolumns, hlines, hdc, hem⟩
  cases hp1 : requestProblem i ses1 with
  | some info =>
    have hp2 : requestProblem i ses2 = some info := agree.requestProblem i ▸ hp1
    obtain ⟨t1, hexec1, hresult1, htrace1⟩ := exec_ready_rejected hi hr1 hp1
    obtain ⟨t2, hexec2, hresult2, htrace2⟩ := exec_ready_rejected hi hr2 hp2
    exact ⟨t1, t2, [], [], hexec1, hexec2, hresult1.trans hresult2.symm, htrace1, htrace2, rfl⟩
  | none =>
    have hp2 : requestProblem i ses2 = none := agree.requestProblem i ▸ hp1
    obtain ⟨ses1', hw1⟩ := Option.isSome_iff_exists.mp (requestWrites_isSome (i := i) hl1 hr1.2)
    obtain ⟨ses2', hw2⟩ := Option.isSome_iff_exists.mp (requestWrites_isSome (i := i) hl2 hr2.2)
    obtain ⟨t1, hexec1, hresult1, htrace1⟩ := exec_ready_issues hi hr1 hn1 hp1 hw1
    obtain ⟨t2, hexec2, hresult2, htrace2⟩ := exec_ready_issues hi hr2 hn2 hp2 hw2
    refine ⟨t1, t2, requestEvents i ses1', requestEvents i ses2', hexec1, hexec2, hresult1.trans hresult2.symm, htrace1,
      htrace2, ?_⟩
    rw [unitsSeen_requestEvents hl1 hw1, unitsSeen_requestEvents hl2 hw2, (agree.requestWrites hw1 hw2).requestUnits i]

end Sys2Proof.Machine
end

section
/-! SUPPORT. The public operations (43_operations.md): what a request in Ready leaves once its argument check has admitted or
rejected it, the layout of text, and the statements about each operation that follow. -/

namespace Sys2Proof.Machine

/-! ## Admitted and rejected requests -/

/-- A request that its check admits, for every list of answers: its register writes, then its fixed event list. -/
theorem exec_ready_attempted {s : State} {ses ses' : Session} {i : Instr} (hi : i.needsReady = true) (h : Ready s ses)
    (hp : requestProblem i ses = none) (hw : requestWrites i ses = some ses') :
    exec i s = .next (s.attempted ses' (requestEvents i ses')) := by
  rw [exec_ready hi h, requestOutcome, hp, hw]

/-- A request that its check rejects changes only the result (R219). -/
theorem exec_ready_invalidArgument {s : State} {ses : Session} {i : Instr} {info : BadArgument}
    (hi : i.needsReady = true) (h : Ready s ses) (hp : requestProblem i ses = some info) :
    exec i s = .next { s with result := some (.err (.invalidArgument info)) } := by
  rw [exec_ready hi h, requestOutcome, hp, ← State.finish_same h.1]

/-- An admitted request that issues nothing behind its protocol units. -/
theorem exec_ready_sends {s : State} {ses ses' : Session} {i : Instr} (hi : i.needsReady = true) (h : Ready s ses)
    (hp : requestProblem i ses = none) (hw : requestWrites i ses = some ses') (ht : requestTail i ses' = []) :
    exec i s = .next (s.attempted ses' (frames ses'.cfg.transport (requestUnits i ses'))) := by
  rw [exec_ready_attempted hi h hp hw, requestEvents, ht, List.append_nil]

theorem columnProblem_of_lt {col : Nat} {ses : Session} (h : col < ses.cfg.columns) : columnProblem col ses = none :=
  if_neg (Nat.not_le.mpr h)

theorem columnProblem_of_le {col : Nat} {ses : Session} (h : ses.cfg.columns ≤ col) :
    columnProblem col ses = some (.col col) := if_pos h

/-! ## Long commands and shifts -/

/-- Settles O14: neither request has a check or a register write, and both have the long-command wait behind their unit. -/
theorem clearAndHomeSendThenWait : Obligations.ClearAndHomeSendThenWait := fun _ _ h =>
  ⟨exec_ready_attempted rfl h rfl rfl, exec_ready_attempted rfl h rfl rfl⟩

/-- Settles O23: neither request has a check, a register write or an event behind its unit. -/
theorem scrollsSendCursorShift : Obligations.ScrollsSendCursorShift := fun _ _ h =>
  ⟨exec_ready_sends rfl h rfl rfl rfl, exec_ready_sends rfl h rfl rfl rfl⟩

/-! ## Cursor and glyphs -/

/-- Settles O15: the column is checked first; `setCursorValue_eq` gives the command. -/
theorem setCursorSendsAddress : Obligations.SetCursorSendsAddress := by
  intro s ses row col h hlines
  refine ⟨fun hcol => ?_, fun hcol => exec_ready_invalidArgument rfl h (columnProblem_of_le hcol)⟩
  rw [exec_ready_sends (i := .setCursor row col) rfl h (columnProblem_of_lt hcol) rfl rfl, requestUnits,
    setCursorValue_eq hlines]

/-- Settles O19: the check and the command of `set_cursor`, then the glyph. -/
theorem writeRawSendsAddressThenGlyph : Obligations.WriteRawSendsAddressThenGlyph := by
  intro s ses glyph row col h hlines
  refine ⟨fun hcol => ?_, fun hcol => exec_ready_invalidArgument rfl h (columnProblem_of_le hcol)⟩
  rw [exec_ready_sends (i := .writeRaw glyph row col) rfl h (columnProblem_of_lt hcol) rfl rfl, requestUnits,
    setCursorValue_eq hlines]

/-- Settles O20: the length is checked first; `glyphSlotValue_eq` gives the slot's address. -/
theorem createCharSendsSlotThenRows : Obligations.CreateCharSendsSlotThenRows := by
  intro s ses location bitmap h
  refine ⟨fun hlen => ?_, fun hlen => exec_ready_invalidArgument rfl h (if_pos hlen)⟩
  have admitted : requestProblem (.createChar location bitmap) ses = none := if_neg (not_not.mpr hlen)
  rw [exec_ready_sends rfl h admitted rfl rfl, requestUnits, glyphSlotValue_eq, dataUnits]

/-! ## Text (R213, R214) -/

theorem justifyText_of_long {text : List Nat} {w : Nat} (h : w ≤ text.length) (j : Justify) :
    justifyText text w j = text.take w := if_pos h

section ShortText

variable {text : List Nat} {w : Nat}

theorem justifyText_left (h : text.length < w) : justifyText text w .left = text ++ spaces (w - text.length) :=
  if_neg (Nat.not_le.mpr h)

theorem justifyText_right (h : text.length < w) : justifyText text w .right = spaces (w - text.length) ++ text :=
  if_neg (Nat.not_le.mpr h)

theorem justifyText_center (h : text.length < w) :
    justifyText text w .center =
      spaces ((w - text.length) / 2) ++ text ++ spaces (w - text.length - (w - text.length) / 2) :=
  if_neg (Nat.not_le.mpr h)

end ShortText

@[simp] theorem length_spaces (k : Nat) : (spaces k).length = k := List.length_replicate

/-- "`len(Justify(s, W, j)) = W` for every `s` and `j`" (R213). -/
theorem length_justifyText (text : List Nat) (w : Nat) (j : Justify) : (justifyText text w j).length = w := by
  rcases Nat.lt_or_ge text.length w with h | h
  · cases j with
    | left => rw [justifyText_left h, List.length_append, length_spaces]; omega
    | right => rw [justifyText_right h, List.length_append, length_spaces]; omega
    | center => simp only [justifyText_center h, List.length_append, length_spaces]; omega
  · rw [justifyText_of_long h, List.length_take_of_le h]

/-- Settles O17. -/
theorem justifyLaysOutText : Obligations.JustifyLaysOutText := fun text w j =>
  ⟨length_justifyText text w j, fun h => justifyText_of_long h j,
    fun h => ⟨justifyText_left h, justifyText_right h, justifyText_center h⟩⟩

/-- Settles O18: no check and no register write; the units are the data units of the layout. -/
theorem writeTextSendsLayout : Obligations.WriteTextSendsLayout := fun _ _ _ _ h =>
  exec_ready_sends rfl h rfl rfl rfl

/-! ## Register updates (10_state.md R27) -/

/-- An update of `display_control`, for every list of answers. -/
theorem runReady_updateDisplayControl_attempted {s : State} {ses : Session} {dc : Byte} (h : Ready s ses)
    (hd : ses.displayControl = some dc) (f : Byte → Byte) :
    runReady s noCheck (Sequencer.updateDisplayControl f) =
      .next (s.attempted { ses with displayControl := some (f dc) }
        (frames ses.cfg.transport [(false, (0x08 ||| f dc).toNat)])) :=
  (runReady_admitted h.1 h.2 rfl _).trans (Sequencer.outcome_updateDisplayControl hd f)

/-- An update of `entry_mode`, for every list of answers. -/
theorem runReady_updateEntryMode_attempted {s : State} {ses : Session} {em : Byte} (h : Ready s ses)
    (he : ses.entryMode = some em) (f : Byte → Byte) :
    runReady s noCheck (Sequencer.updateEntryMode f) =
      .next (s.attempted { ses with entryMode := some (f em) }
        (frames ses.cfg.transport [(false, (0x04 ||| f em).toNat)])) :=
  (runReady_admitted h.1 h.2 rfl _).trans (Sequencer.outcome_updateEntryMode he f)

/-- Settles O21: each toggle updates `display_control` with its own function of the register. -/
theorem displayTogglesWriteAndResend : Obligations.DisplayTogglesWriteAndResend := by
  intro s ses dc h hd
  have updates := runReady_updateDisplayControl_attempted h hd
  exact ⟨updates (· ||| 0x04), updates (· &&& 0xFB), updates (· ||| 0x02), updates (· &&& 0xFD), updates (· ||| 0x01),
    updates (· &&& 0xFE)⟩

/-- Settles O22: each operation updates `entry_mode` with its own function of the register. -/
theorem entryModeOperationsWriteAndResend : Obligations.EntryModeOperationsWriteAndResend := by
  intro s ses em h he
  have updates := runReady_updateEntryMode_attempted h he
  exact ⟨updates (· ||| 0x02), updates (· &&& 0xFD), updates (· ||| 0x01), updates (· &&& 0xFE)⟩

/-! ## InvalidArgument -/

/-- A request whose events were attempted does not answer InvalidArgument. -/
theorem resultOf_ne_invalidArgument (o : Option Event) (b : BadArgument) : resultOf o ≠ .err (.invalidArgument b) := by
  cases o with
  | none => nofun
  | some e => cases hc : e.isClaim <;> simp [resultOf, errorOfFailing, hc]

/-- Settles O49: a construction turned down changes the result alone, and so does another request whose argument is
rejected; every other way to end has another result. -/
theorem invalidArgumentChangesNothing : Obligations.InvalidArgumentChangesNothing := by
  intro s t i b h hr
  cases hi : i.isConstruct with
  | true =>
    rcases exec_construct_cases hi s with ⟨r, he⟩ | ⟨cfg, -, he⟩
    · obtain rfl := Host.Outcome.next.inj (he.symm.trans h)
      exact hr ▸ rfl
    · obtain rfl := Host.Outcome.next.inj (he.symm.trans h)
      exact absurd (Option.some.inj hr) (resultOf_ne_invalidArgument _ b)
  | false =>
    cases Answered.of_exec hi h with
    | refused r => cases hr
    | unchanged hs _ => rw [State.finish_same hs, ← hr, State.finish_result]
    | issued _ _ _ => exact absurd (Option.some.inj hr) (resultOf_ne_invalidArgument _ b)
    | released _ _ _ => exact absurd (Option.some.inj hr) (resultOf_ne_invalidArgument _ b)

end Sys2Proof.Machine
end

section
/-! SUPPORT. Cleanup (44_session.md R283): the answers that its release calls take, and the whole next state it leaves. -/

namespace Sys2Proof.Machine

/-- Each release call takes one answer, since each can fail. -/
theorem callCount_releaseEvents (t : Transport) (claimed : List Resource) :
    callCount (releaseEvents t claimed) = (releaseEvents t claimed).length :=
  List.countP_eq_length.mpr (releaseEvents_canFail t claimed)

/-- Settles O37: in Ready and Failed the release calls leave the cleaned-up session, having taken one answer each; in
Released the session and the answers stay. -/
theorem cleanupReleasesInReverse : Obligations.CleanupReleasesInReverse := by
  intro s ses hs calls
  have hcalls : callCount (releaseEvents ses.cfg.transport ses.claimed) = calls.length := callCount_releaseEvents _ _
  refine ⟨fun hp => ?_, fun hp => ?_⟩
  · exact hcalls ▸ exec_cleanup_releases hs hp
  · exact State.finish_same hs .ok ▸ exec_cleanup_of_released hs hp

end Sys2Proof.Machine
end

section
/-! SUPPORT. Errors and refusals (60_exceptions.md): where a list of events ends when a call fails, what a failing claim and
a failing call of an operation leave, what is refused, and that every request is answered. -/

namespace Sys2Proof.Machine

/-! ## An attempt up to its failing call (R304, R306) -/

/-- When every call is answered `ok`, all events are issued and the answers after theirs are left. -/
theorem attempt_of_ok_answers (es : List Event) (as : List Answer) :
    attempt es (List.replicate (callCount es) .ok ++ as) = ⟨es, as, none⟩ := by
  induction es with
  | nil => exact attempt_nil as
  | cons e es ih =>
    cases he : e.canFail with
    | false =>
      have hcount : callCount (e :: es) = callCount es := List.countP_cons_of_neg (by simp [he])
      rw [hcount, attempt_cons_wait he, ih]; rfl
    | true =>
      have hcount : callCount (e :: es) = callCount es + 1 := List.countP_cons_of_pos he
      rw [hcount, List.replicate_succ, List.cons_append, attempt_cons_ok he es (by simp), List.tail_cons, ih]; rfl

/-- Settles O10: the first part passes (`attempt_of_ok_answers`), and the next call meets the failing answer. -/
theorem attemptEndsWithFailingCall : Obligations.AttemptEndsWithFailingCall := by
  intro pre post e rest he
  have passed := attempt_of_ok_answers pre (.fail :: rest)
  rw [attempt_append_of_passed (congrArg Attempt.failing passed), passed, attempt_cons_fail he]

/-- A list that begins with calls of which the `k`-th is the first to fail ends there. -/
theorem attempt_append_of_first_fail {calls : List Event} (hcalls : ∀ e ∈ calls, e.canFail = true) {k : Nat}
    (hk : k < calls.length) (post : List Event) (rest : List Answer) :
    attempt (calls ++ post) (List.replicate k .ok ++ .fail :: rest) = ⟨calls.take (k + 1), rest, some calls[k]⟩ := by
  have hcount : callCount (calls.take k) = k := by
    have hall : callCount (calls.take k) = (calls.take k).length :=
      List.countP_eq_length.mpr fun e he => hcalls e (List.mem_of_mem_take he)
    rw [hall, List.length_take_of_le hk.le]
  have hsplit : calls ++ post = calls.take k ++ calls[k] :: (calls.drop (k + 1) ++ post) := by
    rw [← List.cons_append, List.getElem_cons_drop, ← List.append_assoc, List.take_append_drop]
  have ends := attemptEndsWithFailingCall (calls.take k) (calls.drop (k + 1) ++ post) calls[k] rest
    (hcalls _ (List.getElem_mem hk))
  rw [hcount, ← hsplit] at ends
  rw [ends, List.take_concat_get' calls k hk]

/-! ## A failing claim (R303) -/

/-- A list that goes on after a failing call is attempted as far as that call. -/
theorem attempt_eq_of_failed_prefix {es fs : List Event} {as : List Answer} {e : Event} (h : es <+: fs)
    (hf : (attempt es as).failing = some e) : attempt fs as = attempt es as := by
  obtain ⟨gs, rfl⟩ := h
  exact attempt_append_of_failing hf gs

theorem claimEvents_prefix_eventsBeforeStep6 (cfg : SessionConfig) :
    claimEvents cfg.transport <+: eventsBeforeStep6 cfg :=
  (List.prefix_append _ _).trans (List.prefix_append _ _)

theorem eventsBeforeStep6_prefix_eventsBeforeStep8 (cfg : SessionConfig) :
    eventsBeforeStep6 cfg <+: eventsBeforeStep8 cfg :=
  (List.prefix_append _ _).trans (List.prefix_append _ _)

/-- The session that a failing claim leaves (41_controller_fsm.md R173), the last of the calls issued: the claims before it,
and no register written but `display_function`. -/
def failedClaimSession (cfg : SessionConfig) (issued : List Event) : Session :=
  { Session.new cfg with
    phase := .failed
    displayFunction := some (initialDisplayFunction cfg.numLines cfg.dotSize)
    claimed := (allResources cfg.transport).take (issued.length - 1)
    trace := issued }

/-- A failing claim ends the whole construction, since the claims are the first calls of its fixed list. -/
theorem State.constructed_of_failed_claim {s : State} {cfg : SessionConfig} {issued : List Event} {rest : List Answer}
    {e : Event} (h : attempt (claimEvents cfg.transport) s.answers = ⟨issued, rest, some e⟩) :
    s.constructed cfg =
      { session := some (failedClaimSession cfg issued)
        earlier := s.earlier ++ s.session.toList
        result := some (.err (.resourceUnavailable e))
        pending := s.pending
        answers := rest } := by
  have hf : (attempt (claimEvents cfg.transport) s.answers).failing = some e := congrArg Attempt.failing h
  have hclaim : e.isClaim = true := claimEvents_isClaim _ _ (attempt_failing_mem hf)
  have ends {fs : List Event} (hfs : claimEvents cfg.transport <+: fs) :
      attempt fs s.answers = ⟨issued, rest, some e⟩ := (attempt_eq_of_failed_prefix hfs hf).trans h
  have hbefore6 := claimEvents_prefix_eventsBeforeStep6 cfg
  have hbefore8 := hbefore6.trans (eventsBeforeStep6_prefix_eventsBeforeStep8 cfg)
  simp [State.constructed, constructedSession, failedClaimSession, Session.new, claimsMade, h, ends hbefore6,
    ends hbefore8, ends (claimEvents_prefix cfg), ioFaultAfter, resultOf, errorOfFailing, hclaim]

section GpioClaims

variable {g : GpioTransport} {k : Nat} (hk : k < g.claimedPins.length)
include hk

/-- The `k`-th pin claim is the first call to fail. -/
theorem attempt_claimEvents_gpio (rest : List Answer) :
    attempt (claimEvents (.gpio g)) (List.replicate k .ok ++ .fail :: rest) =
      ⟨(g.claimedPins.take (k + 1)).map Event.pinOut, rest, some (.pinOut g.claimedPins[k])⟩ := by
  have hcanFail : ∀ e ∈ g.claimedPins.map Event.pinOut, e.canFail = true := List.forall_mem_map.mpr fun _ _ => rfl
  rw [claimEvents_gpio, attempt_append_of_first_fail hcanFail (by simpa using hk), List.map_take, List.getElem_map]

/-- The resources claimed before it: one fewer than the calls issued. -/
theorem take_allResources_gpio :
    (allResources (.gpio g)).take (((g.claimedPins.take (k + 1)).map Event.pinOut).length - 1) =
      (g.claimedPins.take k).map Resource.pin := by
  rw [List.length_map, List.length_take_of_le hk, Nat.succ_sub_one, allResources_gpio,
    List.take_append_of_le_length (by simpa using hk.le), List.map_take]

end GpioClaims

/-- Settles O31: the failing claim is the last of the `k + 1` calls issued (`State.constructed_of_failed_claim`). -/
theorem failedClaimKeepsEarlierClaims : Obligations.FailedClaimKeepsEarlierClaims := by
  intro s rs en d4 d5 d6 d7 bl rw columns lines dot k rest hc hc' hl hl' hd pins hk ha
  have hexec := (constructionFollowsFixedList s columns lines dot hc hc' hl hl').2 rs en d4 d5 d6 d7 bl rw hd
  have hattempt := attempt_claimEvents_gpio
    (g := ⟨rs, en, ⟨d4, d5, d6, d7⟩, bl, rw, Config.pwmChannel, Config.pwmRange⟩) hk rest
  rw [← ha] at hattempt
  rw [State.constructed_of_failed_claim (cfg := gpioConfig rs en d4 d5 d6 d7 bl rw columns lines dot) hattempt] at hexec
  exact ⟨_, _, hexec, rfl, rfl, rfl, rfl, take_allResources_gpio hk, rfl, rfl, rfl, rfl, rfl⟩

/-! ## A failing call of an operation (R302, R307) -/

/-- An operation that reads a register without a value is refused. -/
theorem exec_ready_unwritten {s : State} {ses : Session} {i : Instr} (hi : i.needsReady = true) (h : Ready s ses)
    (hp : requestProblem i ses = none) (hw : requestWrites i ses = none) :
    exec i s = .next (s.refuse .unwrittenRegister) := by
  rw [exec_ready hi h, requestOutcome, hp, hw]

/-- An operation that answers IOFailure was admitted, and a call of its event list failed. -/
theorem exec_ready_ioFailure {s t : State} {ses : Session} {i : Instr} {e : Event} (hi : i.needsReady = true)
    (hr : Ready s ses) (h : exec i s = .next t) (ht : t.result = some (.err (.ioFailure e))) :
    ∃ ses', requestWrites i ses = some ses' ∧ t = s.attempted ses' (requestEvents i ses') ∧
      (attempt (requestEvents i ses') s.answers).failing = some e := by
  cases hp : requestProblem i ses with
  | some info =>
    obtain rfl := Host.Outcome.next.inj ((exec_ready_invalidArgument hi hr hp).symm.trans h)
    cases ht
  | none =>
    cases hw : requestWrites i ses with
    | none =>
      obtain rfl := Host.Outcome.next.inj ((exec_ready_unwritten hi hr hp hw).symm.trans h)
      cases ht
    | some ses' =>
      obtain rfl := Host.Outcome.next.inj ((exec_ready_attempted hi hr hp hw).symm.trans h)
      have hresult : resultOf (attempt (requestEvents i ses') s.answers).failing = .err (.ioFailure e) :=
        Option.some.inj ht
      refine ⟨ses', rfl, rfl, ?_⟩
      cases hf : (attempt (requestEvents i ses') s.answers).failing with
      | none => rw [hf] at hresult; cases hresult
      | some e' =>
        have hclaim := requestEvents_no_claim i ses' e' (attempt_failing_mem hf)
        simpa [hf, resultOf, errorOfFailing, hclaim] using hresult

/-- Settles O50: `attempt_cases` says where the events of the operation ended. -/
theorem ioFailureEndsTheRequest : Obligations.IoFailureEndsTheRequest := by
  intro s t i ses e hi hr h ht
  obtain ⟨ses', hw, rfl, hf⟩ := exec_ready_ioFailure hi hr h ht
  have hclaim : e.isClaim = false := requestEvents_no_claim i ses' e (attempt_failing_mem hf)
  have htrace : ses'.trace = ses.trace := by rw [requestWrites_frame hw]
  have hphase : ses'.phase = .ready := by rw [requestWrites_frame hw]; exact hr.2
  rcases attempt_cases (requestEvents i ses') s.answers with
    ⟨hpassed, -⟩ | ⟨pre, e', post, -, -, hf', hissued, hleft, hfail, hfirst⟩
  · cases hf.symm.trans hpassed
  · obtain rfl := Option.some.inj (hf.symm.trans hf')
    refine ⟨hclaim, _, pre, rfl, ?_, ?_, hphase, hfail, hfirst, hleft⟩
    · rw [Session.record_trace, hissued, htrace, List.append_assoc]
    · simp [hf, ioFaultAfter, hclaim]

/-! ## Refusals (R310, R311) -/

/-- Settles O40: the refusal of `exec_needsReady_refused`, with and without a session to mark. -/
theorem operationsOutsideReadyAreRefused : Obligations.OperationsOutsideReadyAreRefused := by
  refine fun s i hi => ⟨fun ses hs hp => ?_, fun hs => ?_⟩
  · rw [← State.refuse_of_session hs]
    refine exec_needsReady_refused hi fun ses' hs' => ?_
    obtain rfl := Option.some.inj (hs.symm.trans hs')
    exact hp
  · rw [← State.refuse_of_no_session hs]
    exact exec_needsReady_refused hi fun ses hs' => absurd (hs.symm.trans hs') nofun

/-- Settles O42: both rows are `State.refuse`, whatever the session. -/
theorem reservedOpcodesAreRefused : Obligations.ReservedOpcodesAreRefused := fun _ _ => ⟨rfl, rfl⟩

/-! ## Every request is answered (R300) -/

/-- The instruction reaches a next state with a result, which on a legal machine is not UnwrittenRegister. -/
def IsAnswered (i : Instr) (s : State) : Prop :=
  ∃ t r, exec i s = .next t ∧ t.result = some r ∧ (s.Legal → r ≠ .refused .unwrittenRegister)

theorem IsAnswered.refused {i : Instr} {s : State} {r : RefusalReason} (h : exec i s = .next (s.refuse r))
    (hr : r ≠ .unwrittenRegister) : IsAnswered i s :=
  ⟨_, _, h, rfl, fun _ hu => hr (RequestResult.refused.inj hu)⟩

/-- A request whose events were attempted is answered Ok or with an error. -/
theorem IsAnswered.issued {i : Instr} {s t : State} {o : Option Event} (h : exec i s = .next t)
    (hr : t.result = some (resultOf o)) : IsAnswered i s :=
  ⟨_, _, h, hr, fun _ => resultOf_ne_refused _ _⟩

/-- Only an operation reads a register, and on a legal machine the register holds a value in Ready
(`requestWrites_isSome`). -/
theorem exec_needsReady_isAnswered {i : Instr} (hi : i.needsReady = true) (s : State) : IsAnswered i s := by
  by_cases h : ∃ ses, Ready s ses
  · obtain ⟨ses, hr⟩ := h
    cases hp : requestProblem i ses with
    | some info => exact ⟨_, _, exec_ready_invalidArgument hi hr hp, rfl, fun _ => nofun⟩
    | none =>
      cases hw : requestWrites i ses with
      | some ses' => exact .issued (exec_ready_attempted hi hr hp hw) rfl
      | none =>
        refine ⟨_, _, exec_ready_unwritten hi hr hp hw, rfl, fun hl => ?_⟩
        have hsome := requestWrites_isSome (i := i) (hl.current ses hr.1) hr.2
        rw [hw] at hsome
        cases hsome
  · exact .refused (exec_needsReady_refused hi fun ses hs hp => h ⟨ses, hs, hp⟩) nofun

theorem exec_wireRow_isAnswered {i : Instr} (hi : i.isWireUnit = true) (s : State) : IsAnswered i s := by
  by_cases h : ∃ ses, Live s ses
  · obtain ⟨ses, hl⟩ := h
    exact .issued (exec_wireRow hi hl) rfl
  · exact .refused (exec_wireRow_refused hi fun ses hs => Bool.eq_false_iff.mpr fun hp => h ⟨ses, hs, hp⟩) nofun

theorem exec_cleanup_isAnswered (s : State) : IsAnswered .cleanup s := by
  cases hs : s.session with
  | none => exact .refused (exec_cleanup_no_session hs) nofun
  | some ses =>
    cases hp : ses.phase with
    | uninitialized => exact .refused (exec_cleanup_before_ready hs (.inl hp)) nofun
    | handshakeIn4BitMode => exact .refused (exec_cleanup_before_ready hs (.inr hp)) nofun
    | ready => exact .issued (exec_cleanup_releases hs (.inl hp)) rfl
    | failed => exact .issued (exec_cleanup_releases hs (.inr hp)) rfl
    | released => exact ⟨_, _, exec_cleanup_of_released hs hp, rfl, fun _ => nofun⟩

/-- A construction reads no register; the refusals of its validation are two others (41_controller_fsm.md R161). -/
theorem exec_construct_isAnswered {i : Instr} (hi : i.isConstruct = true) (s : State) : IsAnswered i s := by
  cases i with
  | constructI2c a columns lines dot =>
    cases hg : geometryProblem columns lines with
    | some info => exact ⟨_, _, exec_constructI2c_rejected hg, rfl, fun _ => nofun⟩
    | none => exact .issued (exec_constructI2c_runs hg) rfl
  | constructGpio rs en pins bl rw columns lines dot =>
    by_cases h8 : pins.length = 8
    · exact ⟨_, _, exec_constructGpio_eightPins h8, rfl, fun _ => nofun⟩
    by_cases h4 : pins.length = 4
    · obtain ⟨d4, d5, d6, d7, rfl⟩ := List.length_eq_four.mp h4
      by_cases hd : (pinsPresent rs en [d4, d5, d6, d7] bl rw).Nodup
      · cases hg : geometryProblem columns lines with
        | some info => exact ⟨_, _, exec_constructGpio_rejected hd hg, rfl, fun _ => nofun⟩
        | none => exact .issued (exec_constructGpio_runs hd hg) rfl
      · exact ⟨_, _, exec_constructGpio_duplicatePins hd, rfl, fun _ => nofun⟩
    · exact ⟨_, _, exec_constructGpio_badLength h8 h4, rfl, fun _ => nofun⟩
  | _ => cases hi

/-- Settles O44, one lemma for each kind of instruction. -/
theorem everyRequestIsAnswered : Obligations.EveryRequestIsAnswered := by
  intro s i
  by_cases hc : i.isConstruct = true
  · exact exec_construct_isAnswered hc s
  by_cases hr : i.needsReady = true
  · exact exec_needsReady_isAnswered hr s
  by_cases hw : i.isWireUnit = true
  · exact exec_wireRow_isAnswered hw s
  cases i with
  | cleanup => exact exec_cleanup_isAnswered s
  | reservedRequest17 | reservedRequest18 _ => exact IsAnswered.refused rfl nofun
  | _ => simp [Instr.isConstruct, Instr.needsReady, Instr.isWireUnit] at hc hr hw

/-! ## Idle steps and units that are no instruction (R318) -/

theorem takeUnit_of_nothing_pending {s : State} (h : s.pending = []) : takeUnit s = none := by
  simp only [takeUnit, h]

/-- Settles O3: `step` takes no unit, or takes the head unit and matches on what it decodes to. -/
theorem stepIdlesOrRejectsByName : Obligations.StepIdlesOrRejectsByName := by
  refine ⟨fun s hp => ?_, fun s u rest e hp hd => ?_⟩
  · simp only [step, takeUnit_of_nothing_pending hp]
  · simp only [step, takeUnit_of_pending hp, hd]

end Sys2Proof.Machine
end

section
/-! SUPPORT. The minimum duration of an operation (70_reset_and_hazards.md R360): one byte time for each protocol unit it
sends, and the wait of a long command. -/

namespace Sys2Proof.Machine

/-- How long one protocol unit takes (R360). -/
def byteTime : Transport → Nat
  | .i2c _ => 210
  | .gpio _ => 204

/-- How many protocol units an operation that answers Ok sends on a display of so many columns. -/
def requestBytes (columns : Nat) : Instr → Nat
  | .writeText _ _ => columns
  | .writeRaw _ _ _ => 2
  | .createChar _ _ => 9
  | .enableBacklight _ | .disableBacklight => 0
  | _ => 1

/-- The wait an operation adds to those of its protocol units (42_framing.md R192). -/
def requestWait : Instr → Nat
  | .clear | .home => 2000
  | _ => 0

theorem minTime_sendEvents_eq_byteTime (t : Transport) (rs v) : minTime (sendEvents t rs v) = byteTime t := by
  rw [minTime_sendEvents]
  cases t <;> rfl

theorem minTime_frames (t : Transport) (units : List (Level × Nat)) :
    minTime (frames t units) = byteTime t * units.length := by
  induction units with
  | nil => rfl
  | cons u units ih =>
    calc minTime (frames t (u :: units))
        = minTime (sendEvents t u.1 u.2) + minTime (frames t units) := minTime_append _ _
      _ = byteTime t + byteTime t * units.length := by rw [minTime_sendEvents_eq_byteTime, ih]
      _ = byteTime t * (units.length + 1) := by rw [Nat.mul_succ, Nat.add_comm]

/-- A PWM call is no wait. -/
theorem Event.waitTime_of_isPwm {e : Event} (h : e.isPwm = true) : e.waitTime = 0 := by
  cases e with
  | wait _ => cases h
  | _ => rfl

theorem minTime_requestTail (i : Instr) (ses : Session) : minTime (requestTail i ses) = requestWait i := by
  cases i with
  | enableBacklight n => exact minTime_eq_zero fun _ he => Event.waitTime_of_isPwm (enableBacklightEvents_mem he).2
  | disableBacklight => exact minTime_eq_zero fun _ he => Event.waitTime_of_isPwm (disableBacklightEvents_mem he).2
  | _ => rfl

theorem bitmapProblem_eq_none {bitmap : List Nat} {ses : Session} (h : bitmapProblem bitmap ses = none) :
    bitmap.length = 8 := by
  by_contra hne
  exact absurd ((if_pos hne).symm.trans h) nofun

/-- An admitted operation sends its fixed number of units: a register it resends holds a value once written, text is laid out
to the width of a row, and a bitmap has eight rows. -/
theorem length_requestUnits {i : Instr} {ses ses' : Session} (hi : i.needsReady = true)
    (hp : requestProblem i ses = none) (hw : requestWrites i ses = some ses') :
    (requestUnits i ses').length = requestBytes ses'.cfg.columns i := by
  cases i with
  | writeText text justify => exact (List.length_map _).trans (length_justifyText _ _ _)
  | createChar location bitmap =>
    exact congrArg Nat.succ ((List.length_map _).trans (bitmapProblem_eq_none (ses := ses) hp))
  | display | noDisplay | cursor | noCursor | blink | noBlink =>
    obtain ⟨dc, -, rfl⟩ := Session.updateDisplayControl_eq_some hw
    rfl
  | leftToRight | rightToLeft | autoscroll | noAutoscroll =>
    obtain ⟨em, -, rfl⟩ := Session.updateEntryMode_eq_some hw
    rfl
  | clear | home | setCursor _ _ | writeRaw _ _ _ | scrollLeft | scrollRight | enableBacklight _ | disableBacklight => rfl
  | _ => cases hi

theorem minTime_requestEvents {i : Instr} {ses ses' : Session} (hi : i.needsReady = true)
    (hp : requestProblem i ses = none) (hw : requestWrites i ses = some ses') :
    minTime (requestEvents i ses') =
      byteTime ses.cfg.transport * requestBytes ses.cfg.columns i + requestWait i := by
  have hcfg : ses'.cfg = ses.cfg := by rw [requestWrites_frame hw]
  rw [requestEvents, minTime_append, minTime_frames, minTime_requestTail, length_requestUnits hi hp hw, hcfg]

/-- Settles O53: an operation that answers Ok was admitted, and issues the waits of `minTime_requestEvents`. -/
theorem operationsTakeTheirMinimumTime : Obligations.OperationsTakeTheirMinimumTime := by
  intro s t ses i hi hr hlegal hn h hok
  cases hp : requestProblem i ses with
  | some info =>
    obtain ⟨t', hexec, hresult, -⟩ := exec_ready_rejected hi hr hp
    obtain rfl := Host.Outcome.next.inj (hexec.symm.trans h)
    exact absurd (hresult.symm.trans hok) nofun
  | none =>
    obtain ⟨ses', hw⟩ := Option.isSome_iff_exists.mp (requestWrites_isSome (i := i) hlegal hr.2)
    obtain ⟨t', hexec, -, htrace⟩ := exec_ready_issues hi hr hn hp hw
    obtain rfl := Host.Outcome.next.inj (hexec.symm.trans h)
    exact ⟨requestEvents i ses', htrace, minTime_requestEvents hi hp hw⟩

end Sys2Proof.Machine
end
